-- ==== Sys2Proof/Word.lean ====
section
/-! DEFINITION. The widths of the GH28's values, and the two letters A and B that name its quads and clock groups. -/

namespace Sys2Proof

/-- One byte of a link frame; also a cue tag or a request tag. -/
abbrev Byte := BitVec 8

/-- A sample inside the part: a 24-bit signed integer (scope, "Samples"). -/
abbrev Sample := BitVec 24

/-- A gain code: 24-bit signed with 20 fraction bits (scope, "Gain codes"). -/
abbrev Gain := BitVec 24

/-- A 32-bit frame number or mark value (R21, R22). -/
abbrev FrameNo := BitVec 32

/-- One word of the external DRAM (R126). -/
abbrev DramWord := BitVec 32

/-- The letters A and B. -/
inductive Letter where
  | A
  | B
deriving DecidableEq, Repr

/-- A quad of lane pins (scope, "Channels, lanes and quads"). -/
abbrev QuadId := Letter

/-- A clock group (scope, "Groups and frames"). -/
abbrev GroupId := Letter

/-- One thing for each of A and B. -/
structure PerLetter (α : Type) where
  a : α
  b : α
deriving DecidableEq, Repr

namespace PerLetter

variable {α : Type}

/-- The thing of a letter. -/
def get (p : PerLetter α) : Letter → α
  | .A => p.a
  | .B => p.b

/-- The pair with the thing of one letter replaced. -/
def set (p : PerLetter α) (l : Letter) (x : α) : PerLetter α :=
  match l with
  | .A => { p with a := x }
  | .B => { p with b := x }

@[simp] theorem get_set_self (p : PerLetter α) (l : Letter) (x : α) : (p.set l x).get l = x := by
  cases l <;> rfl

theorem get_set_ne (p : PerLetter α) {l m : Letter} (x : α) (h : m ≠ l) : (p.set l x).get m = p.get m := by
  cases l <;> cases m <;> first | rfl | exact absurd rfl h

end PerLetter

/-- A channel slot: 0 to 7 are A0 to A7, 8 to 15 are B0 to B7 (R173). -/
abbrev Channel := Fin 16

/-- A mix bus, 0 to 15. -/
abbrev BusId := Fin 16

/-- A lane position of a quad, 0 to 3. -/
abbrev LanePos := Fin 4

/-- A general pin, GP0 to GP3. -/
abbrev PinId := Fin 4

end Sys2Proof
end

