-- ==== Sys2Proof/Syntax.lean ====
section
/-! DEFINITION. The commands: one constructor for each row of spec/opcode_table.json, with what the outside world brings as operands. -/

namespace Sys2Proof

/-- What begins a transfer that can carry outgoing bytes (R152): the falling edge of SS in SPI mode, or the acknowledge of a read address in two-wire mode. -/
inductive TransferStart where
  | ssFall
  | readAddress (address : BitVec 7)
deriving DecidableEq, Repr

/-- The levels of the strap pins, `true` for high (R171). -/
structure Straps where
  linkSel : Bool
  addr1 : Bool
  addr0 : Bool
  memSz1 : Bool
  memSz0 : Bool
deriving DecidableEq, Repr

/-- A level the board gives a general pin, and whether a rising edge of REFCLK senses the pin there before the next command (R168; log 26). -/
structure PinChange where
  high : Bool
  sensed : Bool
deriving DecidableEq, Repr

/-- The commands. A request command makes the executor take the oldest frame of the request queue (R150),
so its operands are the tag and payload of that frame and its constructor carries none (log 1). -/
inductive Instr where
  /-- PART_IDENTIFY (R172). -/
  | partIdentify
  /-- PART_RESET (R155). -/
  | partReset
  /-- PIN_SET (R169). -/
  | pinSet
  /-- PIN_READ (R170). -/
  | pinRead
  /-- NOTICE_SET (R160). -/
  | noticeSet
  /-- FAULT_READ (R165). -/
  | faultRead
  /-- QUAD_PLAN (R6). -/
  | quadPlan
  /-- QUAD_START (R8). -/
  | quadStart
  /-- LANE_RETIRE (R12). -/
  | laneRetire
  /-- GROUP_POWER_STANDBY (R20). -/
  | groupPowerStandby
  /-- GROUP_POWER_ACTIVE (R20). -/
  | groupPowerActive
  /-- GROUP_MARK (R22). -/
  | groupMark
  /-- GROUP_READ (R24). -/
  | groupRead
  /-- BUS_SET (R40). -/
  | busSet
  /-- BUS_READ (R44). -/
  | busRead
  /-- CLIP_CLEAR (R43). -/
  | clipClear
  /-- XP_READ (R51). -/
  | xpRead
  /-- ROUTE_READ (R58). -/
  | routeRead
  /-- ROUTE_CLEAR (R56). -/
  | routeClear
  /-- CUE_POST (R92). -/
  | cuePost
  /-- CUE_CANCEL (R101). -/
  | cueCancel
  /-- CUE_READ (R104). -/
  | cueRead
  /-- LINE_DEFINE (R129). -/
  | lineDefine
  /-- LINE_CLEAR (R130). -/
  | lineClear
  /-- LINE_RELEASE (R131). -/
  | lineRelease
  /-- LINE_READ (R132). -/
  | lineRead
  /-- ERROR_REPLY (R148). -/
  | errorReply
  /-- TRANSFER_BEGIN (R152). -/
  | transferBegin (start : TransferStart)
  /-- TWO_WIRE_WRITE_ADDRESS (R144): an address byte with the write direction. -/
  | twoWireWriteAddress (address : BitVec 7)
  /-- TRANSFER_END (R145): the whole bytes received in the transfer, and how many whole bytes were sent in it. -/
  | transferEnd (received : List Byte) (sent : Nat)
  /-- OUTGOING_FRAME_COMPLETE (R153): the check byte of the outgoing frame has been sent. -/
  | outgoingFrameComplete
  /-- HARDWARE_RESET (R156): RESET is asserted. -/
  | hardwareReset
  /-- RESET_RELEASE (R171): hardware reset ends and the straps are sampled. -/
  | resetRelease (straps : Straps)
  /-- WORD_SELECT_EDGE (R4): word select of a group changes to `high`, ending a half-frame of `length` bit clocks. -/
  | wordSelectEdge (group : GroupId) (high : Bool) (length : Nat)
  /-- WORD_COMPLETE (R27): the word of a channel is complete; its bits are the low bits of `bits`, up to the lane's word length. -/
  | wordComplete (channel : Channel) (bits : BitVec 32)
  /-- LOSS_TIMER_EXPIRY (R18). -/
  | lossTimerExpiry (group : GroupId)
  /-- FRAME_START (R31). -/
  | frameStart (group : GroupId)
  /-- CUE_START (R65). -/
  | cueStart (group : GroupId)
  /-- GAIN_STEP (R67). -/
  | gainStep (group : GroupId)
  /-- ACCUMULATE (R70). -/
  | accumulate (group : GroupId)
  /-- EXCHANGE_VISIT (R73). -/
  | exchangeVisit (group : GroupId)
  /-- PASS_READ_OFFER (R135). -/
  | passReadOffer (group : GroupId)
  /-- PASS_WRITE_OFFER (R75). -/
  | passWriteOffer (group : GroupId)
  /-- DRAM_READ_COMPLETE (R138). -/
  | dramReadComplete
  /-- DRAM_WRITE_COMPLETE (R138). -/
  | dramWriteComplete
  /-- REFRESH_DUE (R127). -/
  | refreshDue
  /-- REFRESH_COMPLETE (R127). -/
  | refreshComplete
  /-- CLEAR_WRITE (R133). -/
  | clearWrite
  /-- PIN_EDGE (R168): the board gives a general pin another level, which a rising edge of REFCLK senses or not;
  a role change or a hand-back that is taken together with the edge, and first, comes before it is sensed (log 26). -/
  | pinEdge (pin : PinId) (change : PinChange)
deriving DecidableEq, Repr

end Sys2Proof
end

