-- ==== Sys2Proof/Config.lean ====
section
/-! DEFINITION. What is fixed in the part (capacities, access times, identification codes) and the free values, which the manual leaves open. -/

namespace Sys2Proof.Config

/-- Entries of the crosspoint table (R47). -/
abbrev maxEntries : Nat := 96
/-- Records of the cue list (R83). -/
abbrev maxCues : Nat := 24
/-- Records of the edit pool (R87). -/
abbrev poolSize : Nat := 128
/-- Places of the read queue (R135). -/
abbrev maxReads : Nat := 16
/-- Places of the write queue (R135). -/
abbrev maxWrites : Nat := 8
/-- Places of the request queue (R149). -/
abbrev maxRequests : Nat := 4
/-- Places of the reply queue (R150). -/
abbrev maxReplies : Nat := 4
/-- Records of the fault stack (R163). -/
abbrev maxFaults : Nat := 3
/-- The greatest payload of a request (R145). -/
abbrev maxPayload : Nat := 60
/-- Words of a DRAM row (R126). -/
abbrev rowWords : Nat := 1024
/-- REFCLK periods of an access to the open row (R126). -/
abbrev fastPeriods : Nat := 4
/-- REFCLK periods of an access to another row (R126). -/
abbrev slowPeriods : Nat := 10
/-- REFCLK periods of a refresh (R126). -/
abbrev refreshPeriods : Nat := 12
/-- The part code of PART IDENTIFY (R172). -/
abbrev partCode : Byte := 0x28
/-- The revision code of PART IDENTIFY (R172). -/
abbrev revision : Byte := 0x01

/-- FREE VALUE: what a DRAM word that nothing has written holds.
The spec gives the DRAM no contents at power-on (log 9). -/
opaque dramPowerOn : Nat → DramWord

/-- FREE VALUE: the word a hardware reset cut off while it was being written, "left as the memory holds it" (R141),
by the running number of the free value (log 10). -/
opaque abandonedWord : Nat → DramWord

end Sys2Proof.Config
end

