-- ==== Sys2Proof/Machine/State.lean ====
section
/-! DEFINITION. The state of the block as plain data, block by block as the manual's functional overview names the owners, the reasons a step can stop, and the state after hardware reset. -/

namespace Sys2Proof.Machine

/-- Why the block can stop. -/
inductive Fault where
  /-- Raised by DRAM_READ_COMPLETE and DRAM_WRITE_COMPLETE when the access under way is at a word address the DRAM does not have (R126).
  Safe: no line lies outside the DRAM (R129), so no reachable state has such an access (log 11). -/
  | noSuchWord (address : Nat)
deriving DecidableEq, Repr

/-- Why a command can be refused. -/
inductive Refusal where
  /-- Raised by `exec` for a command that has no meaning yet. Safe: nothing is claimed of it. No arm raises it. -/
  | notModelled (mnemonic : String)
deriving DecidableEq, Repr

/-! ### Lane interface (Chapter 1) -/

/-- Direction of a lane (R1). -/
inductive Direction where
  | input
  | output
deriving DecidableEq, Repr

/-- Line word length in bits (R1). -/
inductive WordLength where
  | w16
  | w20
  | w24
  | w32
deriving DecidableEq, Repr

/-- The description of one present lane, with the width R2 granted it. -/
structure LanePlan where
  direction : Direction
  requested : Nat
  granted : Nat
  wordLength : WordLength
deriving DecidableEq, Repr

/-- The level of word select in the left half-frame (R1). -/
inductive Polarity where
  | leftHigh
  | leftLow
deriving DecidableEq, Repr

/-- A quad plan (R1). A position is in the presence mask when it has a lane description. -/
structure Plan where
  lanes : Vector (Option LanePlan) 4
  halfLength : Nat
  firstBitDelay : Bool
  polarity : Polarity
  joined : Bool
deriving DecidableEq, Repr

/-- The three states of a quad (section 1.2), each with the plan it stores. -/
inductive Quad where
  | unplanned
  | planned (plan : Plan)
  | started (plan : Plan)
deriving DecidableEq, Repr

/-- The state of a clock group (section 1.5). -/
inductive GroupState where
  | off
  | acquiring
  | locked
  | lost
  | standby
deriving DecidableEq, Repr

/-- The two halves of a frame. -/
inductive Side where
  | left
  | right
deriving DecidableEq, Repr

/-- The half-frame in progress: its side and the bit clocks it is known to have lasted (section 1.5; log 5). -/
structure HalfFrame where
  side : Side
  length : Nat
deriving DecidableEq, Repr

/-- Mark mode (R22). -/
inductive MarkMode where
  | pulse
  | latch
deriving DecidableEq, Repr

/-- A clock group (section 1.5). -/
structure ClockGroup where
  state : GroupState
  /-- Acquisition count, 0 to 2 (R15). -/
  count : Nat
  half : Option HalfFrame
  /-- A good left half-frame stands before the half-frame in progress (R15, R16). -/
  goodLeft : Bool
  /-- The frame just ended was delivered and its frame start is still to be made (R31). -/
  startDue : Bool
  /-- The frame start that ends the frame in progress has been made, with a first-bit delay of 0;
  with a delay of 1 it is taken first at the edge to come, before the arrival (R31; log 7). -/
  startMade : Bool
  counter : FrameNo
  /-- The loss timer is running (R18). -/
  lossTimer : Bool
  mark : FrameNo
  markMode : MarkMode
  /-- Mark output level (R23). -/
  markOut : Bool
deriving DecidableEq, Repr

/-- The lane interface: the quad plans, the clock groups, and how far a joined quad B has come since its start (R10). -/
structure LaneInterface where
  quads : PerLetter Quad
  groups : PerLetter ClockGroup
  /-- A left half-frame of group A has begun since the joined quad B was started, so its IN lanes capture. -/
  joinedCapture : Bool
  /-- The joined quad B's OUT lanes are driven. -/
  joinedDriven : Bool
deriving DecidableEq, Repr

/-! ### Word path (Chapter 2) -/

/-- A capture register: how many bits it holds, and the bits (Chapter 2, table). -/
structure Capture where
  count : Nat
  bits : BitVec 32
deriving DecidableEq, Repr

/-- An output slot (R30). -/
structure OutSlot where
  value : Sample
  fresh : Bool
deriving DecidableEq, Repr

/-- The word path. `settled` is the sample each output channel transmits since the last frame start (R31, R36), and `previous` the one
it transmitted before it, whose last bit can still fall at bit position 0 of the half-frame that begins there (R3). -/
structure WordPath where
  capture : Vector Capture 16
  inSlot : Vector Sample 16
  outSlot : Vector OutSlot 16
  lastWord : Vector Sample 16
  settled : Vector Sample 16
  previous : Vector Sample 16
  firstFrame : PerLetter Bool
deriving DecidableEq, Repr

/-! ### Mix engine (Chapters 3, 4 and 6) -/

/-- Rounding setting of a bus (R39). -/
inductive Rounding where
  | convergent
  | truncate
deriving DecidableEq, Repr

/-- Overflow setting of a bus (R39). -/
inductive Overflow where
  | saturate
  | wrap
deriving DecidableEq, Repr

/-- A bus record (R39). Its delay line field is the bus's place in the delay line table. -/
structure BusRecord where
  group : Option GroupId
  rounding : Rounding
  overflow : Overflow
  clip : Bool
  entryCount : Nat
  ownedCount : Nat
  holdCount : Nat
deriving DecidableEq, Repr

/-- A ramp (R45). -/
structure Ramp where
  start : Gain
  target : Gain
  length : Nat
  elapsed : Nat
  owner : Byte
deriving DecidableEq, Repr

/-- The state of a crosspoint entry, with its ramp where it has one (R45). -/
inductive EntryState where
  | steady
  | ramping (ramp : Ramp)
  | fading (ramp : Ramp)
deriving DecidableEq, Repr

/-- A crosspoint entry (R45). -/
structure Entry where
  channel : Channel
  bus : BusId
  gain : Gain
  state : EntryState
deriving DecidableEq, Repr

/-- A route table entry (R54). -/
inductive Route where
  | absent
  | free
  | owned (bus : BusId)
  | clashed (first second : BusId)
deriving DecidableEq, Repr

/-- The stage a pass makes next (R63). -/
inductive Stage where
  | cueStart
  | gainStep
  | accumulate
  | exchange
deriving DecidableEq, Repr

/-- Exchange progress of one bus of a pass (R62).
`withdrawn` is a bus whose read was withdrawn before it was offered: its value never becomes known (R75, R139; log 12). -/
inductive Progress where
  | waiting
  | readOutstanding
  | known (value : Sample)
  | withdrawn
deriving DecidableEq, Repr

/-- One bus of a pass's bus set: the settings read at the arrival, its terms, its result and its exchange progress (R62). -/
structure PassBus where
  bus : BusId
  rounding : Rounding
  overflow : Overflow
  terms : List (Channel × Gain)
  result : Sample
  progress : Progress
deriving DecidableEq, Repr

/-- The pair of a bus that the pass has not yet fully offered: the read's address while the read is still to be offered, and the write (R75, R139). -/
structure Waiting where
  bus : BusId
  read : Option Nat
  write : Nat
  value : Sample
deriving DecidableEq, Repr

/-- A pass context that is IN FLIGHT (R62). -/
structure Pass where
  frame : FrameNo
  samples : List (Channel × Sample)
  buses : List PassBus
  /-- Outstanding reads, oldest first. -/
  outstanding : List (Nat × BusId)
  leftLocked : Bool
  stage : Stage
  wait : Option Waiting
deriving DecidableEq, Repr

/-- The mix engine. The crosspoint table is in ascending order of bus and then of input channel; a context that is IDLE is `none`. -/
structure MixEngine where
  buses : Vector BusRecord 16
  xp : List Entry
  routes : Vector Route 16
  passes : PerLetter (Option Pass)
deriving DecidableEq, Repr

/-! ### Cue list (Chapter 5) -/

/-- A trigger (R84). -/
inductive Trigger where
  | atFrame (frame : FrameNo)
  | next
  | pin (pin : PinId)
  | after (tag : Byte)
deriving DecidableEq, Repr

/-- An edit record (R86). -/
inductive Edit where
  | gain (channel : Channel) (bus : BusId) (target : Gain)
  | drop (channel : Channel) (bus : BusId)
  | route (channel : Channel) (bus : BusId)
  | unroute (channel : Channel) (bus : BusId)
  | delay (bus : BusId) (samples : Nat)
deriving DecidableEq, Repr

/-- State of a cue (R84). -/
inductive CueState where
  | waiting
  | applying
deriving DecidableEq, Repr

/-- A cue record (R84). `edits` are its records in the edit pool: a WAITING cue's edits, and none for an APPLYING cue (R87). -/
structure Cue where
  tag : Byte
  group : GroupId
  trigger : Trigger
  armed : Bool
  deferred : Bool
  rampLength : Nat
  edits : List Edit
  state : CueState
  outstanding : Nat
deriving DecidableEq, Repr

/-! ### Memory port (Chapter 7) -/

/-- State of a delay line, with the clear position while CLEARING (R128). -/
inductive LineState where
  | clearing (position : Nat)
  | active
deriving DecidableEq, Repr

/-- A delay line record (R128). -/
structure Line where
  base : Nat
  length : Nat
  writeIndex : Nat
  delay : Nat
  state : LineState
deriving DecidableEq, Repr

/-- A read record (R135). -/
structure ReadRequest where
  address : Nat
  group : GroupId
  bus : BusId
deriving DecidableEq, Repr

/-- Who offered a write (R135). -/
inductive WriteSource where
  | pass (group : GroupId) (bus : BusId)
  | clearEngine
deriving DecidableEq, Repr

/-- A write record (R135). -/
structure WriteRequest where
  address : Nat
  value : DramWord
  source : WriteSource
deriving DecidableEq, Repr

/-- The access the DRAM is making (R136, R127), fast or slow (R140). A read whose pass a soft reset has ended has no destination (R141). -/
inductive Access where
  | read (address : Nat) (destination : Option (GroupId × BusId)) (fast : Bool)
  | write (address : Nat) (value : DramWord) (fast : Bool)
  | refresh
deriving DecidableEq, Repr

/-- The words of the DRAM that something has written, in rising order of address (log 9). -/
abbrev Memory := List (Nat × DramWord)

/-- The memory port. `readWait` and `writeWait` are the groups whose pass waits for a place, longest wait first (R135). -/
structure MemoryPort where
  lines : Vector (Option Line) 16
  clearing : List BusId
  readQ : List ReadRequest
  writeQ : List WriteRequest
  readWait : List GroupId
  writeWait : List GroupId
  openRow : Option Nat
  access : Option Access
  refreshDue : Bool
  dram : Memory
deriving DecidableEq, Repr

/-! ### Control link (Chapters 8 and 9) -/

/-- The assigned request kinds (R175). -/
inductive RequestKind where
  | partIdentify | partReset | pinSet | pinRead | noticeSet | faultRead
  | quadPlan | quadStart | laneRetire | groupPower | groupMark | groupRead
  | busSet | busRead | clipClear | xpRead | routeRead | routeClear
  | cuePost | cueCancel | cueRead
  | lineDefine | lineClear | lineRelease | lineRead
deriving DecidableEq, Repr

/-- What R145 makes of the bytes of a transfer. -/
inductive FrameOutcome where
  | request (kind : RequestKind)
  | tooLong
  | short
  | badCheck
  | unknown
deriving DecidableEq, Repr

/-- A received frame: its outcome, the kind and tag bytes as received, and for a request its payload (R145). -/
structure ReceivedFrame where
  outcome : FrameOutcome
  kind : Byte
  tag : Byte
  payload : List Byte
deriving DecidableEq, Repr

/-- Reply status codes (R175). -/
inductive Status where
  | ok | none | unknown | short | tooLong | badCheck | badValue | notReady
  | planFixed | emptyPlan | badFormat | inUse | dupTag | noSuchCue | listFull | poolFull
  | pinRole | noChannel | wrongGroup | noLine | overlap | outOfMemory
deriving DecidableEq, Repr

/-- A reply as it was made: the reply kind byte, the tag, the status byte with the overrun flag on top, and the payload (R147). -/
structure Reply where
  kind : Byte
  tag : Byte
  status : Byte
  payload : List Byte
deriving DecidableEq, Repr

/-- The seven notice classes (R157). -/
inductive NoticeClass where
  | fault | lock | cueDone | clip | mark | line | pin
deriving DecidableEq, Repr

/-- The stored payload of a pending notice (R158). A live payload is not stored. -/
inductive NoticePayload where
  | live
  | cueDone (group : GroupId) (tag : Byte)
  | clip (mask : BitVec 16)
  | mark (mask : BitVec 2)
  | line (bus : BusId)
  | pin (pin : PinId) (high : Bool)
deriving DecidableEq, Repr

/-- A pending notice (R157). -/
structure PendingNotice where
  payload : NoticePayload
  more : Bool
deriving DecidableEq, Repr

/-- The collection an outgoing frame comes from: the reply queue's oldest reply, or the notice of a class (R152). -/
inductive Source where
  | reply
  | notice (cls : NoticeClass)
deriving DecidableEq, Repr

/-- The frame a transfer is sending: where it comes from, its bytes as built, whether its check byte has been sent,
and, for a notice, whether an occurrence changed the pending notice and whether it left the notice set since the frame was built (R153). -/
structure Outgoing where
  source : Source
  bytes : List Byte
  complete : Bool
  changed : Bool
  removed : Bool
deriving DecidableEq, Repr

/-- The form of a transfer (R143, R144). -/
inductive TransferForm where
  | spi
  | twoWireWrite
  | twoWireRead
deriving DecidableEq, Repr

/-- The transfer in progress. -/
structure Transfer where
  form : TransferForm
  outgoing : Option Outgoing
deriving DecidableEq, Repr

/-- The control link (Chapter 8) with the notice set (Chapter 9). -/
structure Link where
  requests : List ReceivedFrame
  replies : List Reply
  overrun : Bool
  held : Option Source
  transfer : Option Transfer
  /-- Whether the last two-wire address was acknowledged (R144). -/
  addressAck : Bool
  notices : Vector (Option PendingNotice) 7
  enable : BitVec 7
  twoLine : Bool
deriving DecidableEq, Repr

/-! ### Fault stack and pin unit (Chapters 9 and 10) -/

/-- Fault codes (R162). -/
inductive FaultCode where
  | slip | clockLoss | latePass | underrun | xpFull | clash | editVoid
deriving DecidableEq, Repr

/-- A fault record (R162). A field that is absent is `none`. -/
structure FaultRecord where
  code : FaultCode
  group : Option GroupId
  channel : Option Channel
  bus : Option BusId
  secondBus : Option BusId
  tag : Option Byte
  frame : Option FrameNo
  address : Option Nat
  repeated : Bool
  lostBelow : Bool
deriving DecidableEq, Repr

/-- Roles of a general pin (R167). -/
inductive PinRole where
  | input | triggerRise | triggerFall | outputLow | outputHigh | markA | markB | lockedA | lockedB
deriving DecidableEq, Repr

/-- A general pin: its settings, its reference level (`none` until a level has been sensed since the reset, R171; log 15),
and the level the board gives the pin. -/
structure GeneralPin where
  role : PinRole
  openDrain : Bool
  report : Bool
  reference : Option Bool
  board : Bool
deriving DecidableEq, Repr

/-- The whole state. -/
structure State where
  /-- Commands that are waiting, first in, first out. -/
  pending : List Instr
  /-- The part is in hardware reset (R156). -/
  resetHeld : Bool
  /-- The strap values sampled at the end of the last hardware reset (R171). -/
  straps : Straps
  lane : LaneInterface
  word : WordPath
  mix : MixEngine
  cues : List Cue
  mem : MemoryPort
  link : Link
  /-- The fault stack, newest first (R163). -/
  faults : List FaultRecord
  pins : Vector GeneralPin 4
  /-- How many free values have been used (log 10). -/
  free : Nat
deriving DecidableEq, Repr

/-! ### Reset values -/

/-- A clock group after either reset (section 1.5). -/
def ClockGroup.reset : ClockGroup :=
  { state := .off, count := 0, half := none, goodLeft := false, startDue := false, startMade := false,
    counter := 0, lossTimer := false, mark := 0xFFFFFFFF, markMode := .pulse, markOut := false }

/-- The lane interface after either reset (section 1.2, section 1.5). -/
def LaneInterface.reset : LaneInterface :=
  { quads := ⟨.unplanned, .unplanned⟩, groups := ⟨ClockGroup.reset, ClockGroup.reset⟩,
    joinedCapture := false, joinedDriven := false }

/-- The word path after either reset (R38). -/
def WordPath.reset : WordPath :=
  { capture := Vector.replicate 16 ⟨0, 0⟩, inSlot := Vector.replicate 16 0,
    outSlot := Vector.replicate 16 ⟨0, false⟩, lastWord := Vector.replicate 16 0,
    settled := Vector.replicate 16 0, previous := Vector.replicate 16 0, firstFrame := ⟨false, false⟩ }

/-- A bus record after either reset (R39). -/
def BusRecord.reset : BusRecord :=
  { group := none, rounding := .convergent, overflow := .saturate, clip := false,
    entryCount := 0, ownedCount := 0, holdCount := 0 }

/-- The mix engine after either reset (R39, R53, R54, R81). -/
def MixEngine.reset : MixEngine :=
  { buses := Vector.replicate 16 BusRecord.reset, xp := [], routes := Vector.replicate 16 .absent,
    passes := ⟨none, none⟩ }

/-- The memory port after hardware reset, over the DRAM's contents (R141). -/
def MemoryPort.reset (dram : Memory) : MemoryPort :=
  { lines := Vector.replicate 16 none, clearing := [], readQ := [], writeQ := [], readWait := [], writeWait := [],
    openRow := none, access := none, refreshDue := false, dram := dram }

/-- The enable mask after either reset: FAULT and LOCK (R160). -/
def enableReset : BitVec 7 := 0b0000011

/-- The control link after hardware reset (R156). -/
def Link.reset : Link :=
  { requests := [], replies := [], overrun := false, held := none, transfer := none, addressAck := false,
    notices := Vector.replicate 7 none, enable := enableReset, twoLine := false }

/-- A general pin after either reset, under the level the board gives it (R171). -/
def GeneralPin.reset (board : Bool) : GeneralPin :=
  { role := .input, openDrain := false, report := false, reference := none, board := board }

/-- The machine when hardware reset has just ended, with every strap and every board level low (log 3). -/
def State.reset : State :=
  { pending := [], resetHeld := false, straps := ⟨false, false, false, false, false⟩,
    lane := LaneInterface.reset, word := WordPath.reset, mix := MixEngine.reset, cues := [],
    mem := MemoryPort.reset [], link := Link.reset, faults := [],
    pins := Vector.replicate 4 (GeneralPin.reset false), free := 0 }

end Sys2Proof.Machine
end

