-- ==== Sys2Proof/Machine/Ops.lean ====
section
/-! DEFINITION. The named operations over the state that the meanings share: accessors, the channel set, the DRAM's words, the notice set, the fault stack, bus counts, the crosspoint and route tables, and the bookkeeping of cues and ramps. -/

namespace Sys2Proof.Machine

/-! ### Accessors -/

/-- The clock group of a letter. -/
def State.group (s : State) (g : GroupId) : ClockGroup := s.lane.groups.get g

/-- The state with one clock group replaced. -/
def State.setGroup (s : State) (g : GroupId) (G : ClockGroup) : State :=
  { s with lane := { s.lane with groups := s.lane.groups.set g G } }

/-- The quad of a letter. -/
def State.quad (s : State) (q : QuadId) : Quad := s.lane.quads.get q

/-- The state with one quad replaced. -/
def State.setQuad (s : State) (q : QuadId) (Q : Quad) : State :=
  { s with lane := { s.lane with quads := s.lane.quads.set q Q } }

/-- The stored plan of a quad. -/
def Quad.plan : Quad → Option Plan
  | .unplanned => none
  | .planned p => some p
  | .started p => some p

/-- The plan of a quad that is STARTED. -/
def Quad.startedPlan : Quad → Option Plan
  | .unplanned => none
  | .planned _ => none
  | .started p => some p

/-- The pass context of a group; `none` is IDLE (R62). -/
def State.pass (s : State) (g : GroupId) : Option Pass := s.mix.passes.get g

/-- The state with one pass context replaced. -/
def State.setPass (s : State) (g : GroupId) (p : Option Pass) : State :=
  { s with mix := { s.mix with passes := s.mix.passes.set g p } }

/-- A bus record. -/
def State.bus (s : State) (b : BusId) : BusRecord := s.mix.buses[b]

/-- The state with one bus record changed. -/
def State.modifyBus (s : State) (b : BusId) (f : BusRecord → BusRecord) : State :=
  { s with mix := { s.mix with buses := s.mix.buses.set b (f s.mix.buses[b]) } }

/-- The line of a bus. -/
def State.line (s : State) (b : BusId) : Option Line := s.mem.lines[b]

/-- The state with the line of a bus replaced. -/
def State.setLine (s : State) (b : BusId) (l : Option Line) : State :=
  { s with mem := { s.mem with lines := s.mem.lines.set b l } }

/-! ### Quads, lanes and channels -/

/-- The channel slots in ascending order, A0 to A7 and then B0 to B7. -/
def allChannels : List Channel := List.finRange 16

/-- The buses in ascending order. -/
def allBuses : List BusId := List.finRange 16

/-- The lane positions in ascending order. -/
def allPositions : List LanePos := List.finRange 4

/-- The quad a channel slot belongs to. -/
def channelQuad (c : Channel) : QuadId := if c.val < 8 then .A else .B

/-- The slot number of a channel within its quad. -/
def channelSlot (c : Channel) : Nat := c.val % 8

/-- An even slot travels in the left half-frame and an odd one in the right (R3). -/
def channelSide (c : Channel) : Side := if c.val % 2 = 0 then .left else .right

/-- A lane at position p of granted width w carries slots 2p to 2p + 2w - 1 (R3). -/
def LanePlan.carries (l : LanePlan) (p : LanePos) (slot : Nat) : Bool :=
  decide (2 * p.val ≤ slot ∧ slot < 2 * p.val + 2 * l.granted)

/-- The present lane of a plan that carries a slot, with its position. -/
def Plan.laneOfSlot (plan : Plan) (slot : Nat) : Option (LanePos × LanePlan) :=
  allPositions.findSome? fun p =>
    match plan.lanes[p] with
    | some l => if l.carries p slot then some (p, l) else none
    | none => none

/-- The index of a slot's word within its half-frame on a lane at position p: word i carries slots 2p + 2i and 2p + 2i + 1 (R3). -/
def wordIndex (p : LanePos) (slot : Nat) : Nat := (slot - 2 * p.val) / 2

/-- Quad B is STARTED with the joined flag set (R5). -/
def State.bJoined (s : State) : Bool :=
  match (s.quad .B).startedPlan with
  | some p => p.joined
  | none => false

/-- The clock group that frames a quad's lanes (R5). -/
def State.groupOfQuad (s : State) (q : QuadId) : GroupId :=
  match q with
  | .A => .A
  | .B => if s.bJoined then .A else .B

/-- The clock group a channel belongs to (R91). -/
def State.groupOfChannel (s : State) (c : Channel) : GroupId := s.groupOfQuad (channelQuad c)

/-- The lane of a STARTED quad that carries a channel (R3, R9). -/
def State.channelLane (s : State) (c : Channel) : Option (LanePos × LanePlan) :=
  match (s.quad (channelQuad c)).startedPlan with
  | some plan => plan.laneOfSlot (channelSlot c)
  | none => none

/-- The channel is an input channel of the channel set (R91). -/
def State.isInput (s : State) (c : Channel) : Bool :=
  match s.channelLane c with
  | some (_, l) => decide (l.direction = .input)
  | none => false

/-- The channel is an output channel of the channel set. -/
def State.isOutput (s : State) (c : Channel) : Bool :=
  match s.channelLane c with
  | some (_, l) => decide (l.direction = .output)
  | none => false

/-- The channel is an output channel of a group. -/
def State.isOutputOf (s : State) (g : GroupId) (c : Channel) : Bool :=
  s.isOutput c && decide (s.groupOfChannel c = g)

/-- The channel is an input channel of a group. -/
def State.isInputOf (s : State) (g : GroupId) (c : Channel) : Bool :=
  s.isInput c && decide (s.groupOfChannel c = g)

/-! ### The DRAM's words (R126) -/

namespace Memory

/-- The word written last at an address, if any was. -/
def find : Memory → Nat → Option DramWord
  | [], _ => none
  | (b, w) :: rest, a => if b = a then some w else find rest a

/-- The word at an address: what was written last, or the free power-on contents (log 9). -/
def read (m : Memory) (a : Nat) : DramWord := (m.find a).getD (Config.dramPowerOn a)

/-- The memory with a word stored, in rising order of address. -/
def write : Memory → Nat → DramWord → Memory
  | [], a, w => [(a, w)]
  | (b, v) :: rest, a, w =>
    if a < b then (a, w) :: (b, v) :: rest
    else if a = b then (a, w) :: rest
    else (b, v) :: write rest a w

/-- The canonical form: addresses strictly rising. An unlisted word has no fixed value, so no listed word can equal it. -/
def wf : Memory → Bool
  | [] => true
  | [_] => true
  | (a, _) :: (b, w) :: rest => decide (a < b) && wf ((b, w) :: rest)

end Memory

/-- The DRAM size in words that the straps choose (R126). -/
def Straps.dramWords (t : Straps) : Nat :=
  match t.memSz1, t.memSz0 with
  | false, false => 0
  | false, true => 1048576
  | true, false => 2097152
  | true, true => 4194304

/-- The DRAM size in words (R126). -/
def State.dramWords (s : State) : Nat := Straps.dramWords s.straps

/-! ### The notice set (R157 to R159) -/

/-- The class number (R173). -/
def NoticeClass.index : NoticeClass → Fin 7
  | .fault => 0
  | .lock => 1
  | .cueDone => 2
  | .clip => 3
  | .mark => 4
  | .line => 5
  | .pin => 6

/-- The classes in order of class number, which is also their order of priority (R152). -/
def allClasses : List NoticeClass := [.fault, .lock, .cueDone, .clip, .mark, .line, .pin]

/-- The stored payload after an occurrence while the notice is pending: gathered masks grow, a latest payload is replaced, a live one is not stored (R158). -/
def NoticePayload.merge (old new : NoticePayload) : NoticePayload :=
  match old, new with
  | .clip m, .clip n => .clip (m ||| n)
  | .mark m, .mark n => .mark (m ||| n)
  | _, n => n

/-- The transfer in progress learns that an occurrence changed the notice of a class (R153). -/
def Transfer.noteChange (cls : NoticeClass) (t : Transfer) : Transfer :=
  { t with outgoing := t.outgoing.map fun o => if o.source = .notice cls then { o with changed := true } else o }

/-- The transfer in progress learns that the notice of a class left the notice set (R153). -/
def Transfer.noteRemoval (cls : NoticeClass) (t : Transfer) : Transfer :=
  { t with outgoing := t.outgoing.map fun o => if o.source = .notice cls then { o with removed := true } else o }

/-- The class is enabled (R157). -/
def Link.enabled (l : Link) (cls : NoticeClass) : Bool := l.enable.getLsbD cls.index.val

/-- The pending notice of a class. -/
def Link.notice (l : Link) (cls : NoticeClass) : Option PendingNotice := l.notices[cls.index]

/-- One occurrence of a class reaches the control link (R157, R158). -/
def Link.occur (l : Link) (cls : NoticeClass) (payload : NoticePayload) : Link :=
  if l.enabled cls then
    { l with
      notices := l.notices.set cls.index (some (match l.notice cls with
        | none => { payload := payload, more := false }
        | some old => { payload := old.payload.merge payload, more := true }))
      transfer := l.transfer.map (Transfer.noteChange cls) }
  else l

/-- The pending notice of a class leaves the notice set; a held notice of the class is held no longer (R159, R153). -/
def Link.dropNotice (l : Link) (cls : NoticeClass) : Link :=
  { l with
    notices := l.notices.set cls.index none
    held := if l.held = some (.notice cls) then none else l.held
    transfer := l.transfer.map (Transfer.noteRemoval cls) }

/-- One occurrence of a notice class (R157). -/
def State.occur (s : State) (cls : NoticeClass) (payload : NoticePayload) : State :=
  { s with link := s.link.occur cls payload }

/-! ### The fault stack (R162, R163) -/

/-- A fault record of a group and frame with every other field absent and both flags clear (R162). -/
def FaultRecord.of (code : FaultCode) (g : GroupId) (frame : FrameNo) : FaultRecord :=
  { code := code, group := some g, channel := none, bus := none, secondBus := none, tag := none,
    frame := some frame, address := none, repeated := false, lostBelow := false }

/-- The stack after a push (R163). -/
def pushRecord (f : FaultRecord) : List FaultRecord → List FaultRecord
  | [] => [f]
  | top :: rest =>
    if top.code = f.code ∧ top.group = f.group then { top with repeated := true } :: rest
    else if rest.length + 1 < Config.maxFaults then f :: top :: rest
    else { f with lostBelow := true } :: (top :: rest).take (Config.maxFaults - 1)

/-- A fault is pushed, which is one occurrence of the FAULT class (R163). -/
def State.pushFault (s : State) (f : FaultRecord) : State :=
  { s with faults := pushRecord f s.faults }.occur .fault .live

/-! ### Bus counts (R42) -/

/-- The entry count of a bus goes up by one. -/
def State.raiseEntries (s : State) (b : BusId) : State :=
  s.modifyBus b fun r => { r with entryCount := r.entryCount + 1 }

/-- The entry count of a bus goes down by one. -/
def State.lowerEntries (s : State) (b : BusId) : State :=
  s.modifyBus b fun r => { r with entryCount := r.entryCount - 1 }

/-- The bus an edit names (R86). -/
def Edit.bus : Edit → BusId
  | .gain _ b _ => b
  | .drop _ b => b
  | .route _ b => b
  | .unroute _ b => b
  | .delay b _ => b

/-- The channel an edit names, if its kind names one (R86). -/
def Edit.channel : Edit → Option Channel
  | .gain c _ _ => some c
  | .drop c _ => some c
  | .route c _ => some c
  | .unroute c _ => some c
  | .delay _ _ => none

/-- Edits enter the pool: the hold count of each bus they name goes up by one for each edit (R87). -/
def State.takeHolds (s : State) (edits : List Edit) : State :=
  edits.foldl (fun t e => t.modifyBus e.bus fun r => { r with holdCount := r.holdCount + 1 }) s

/-- Edits leave the pool: the hold count of each bus they name goes down by one for each edit (R87). -/
def State.releaseHolds (s : State) (edits : List Edit) : State :=
  edits.foldl (fun t e => t.modifyBus e.bus fun r => { r with holdCount := r.holdCount - 1 }) s

/-- Pool records in use: the edits of the cues in the list (R87). -/
def State.poolUsed (s : State) : Nat := (s.cues.map fun c => c.edits.length).sum

/-- Free pool records (R92). -/
def State.poolFree (s : State) : Nat := Config.poolSize - s.poolUsed

/-! ### The crosspoint table (R45 to R50) -/

/-- The place of an entry in the order of the table: ascending bus, and within a bus ascending input channel (R67). -/
def xpKey (c : Channel) (b : BusId) : Nat := b.val * 16 + c.val

/-- The entry of a channel on a bus. -/
def xpFind (xp : List Entry) (c : Channel) (b : BusId) : Option Entry :=
  xp.find? fun e => decide (e.channel = c ∧ e.bus = b)

/-- The table with an entry put in its place, replacing the entry of the same pair. -/
def xpPut (e : Entry) : List Entry → List Entry
  | [] => [e]
  | f :: rest =>
    if xpKey e.channel e.bus < xpKey f.channel f.bus then e :: f :: rest
    else if xpKey e.channel e.bus = xpKey f.channel f.bus then e :: rest
    else f :: xpPut e rest

/-- The table without the entry of a pair. -/
def xpRemove (xp : List Entry) (c : Channel) (b : BusId) : List Entry :=
  xp.filter fun e => decide (¬(e.channel = c ∧ e.bus = b))

/-- The state with another crosspoint table. -/
def State.setXp (s : State) (xp : List Entry) : State := { s with mix := { s.mix with xp := xp } }

/-- The ramp of an entry (R45). -/
def EntryState.ramp : EntryState → Option Ramp
  | .steady => none
  | .ramping r => some r
  | .fading r => some r

/-- The cue tag an entry's ramp names. -/
def Entry.owner (e : Entry) : Option Byte := e.state.ramp.map Ramp.owner

/-! ### The route table (R54, R55) -/

/-- The bus that owns a route entry. -/
def Route.owner : Route → Option BusId
  | .owned b => some b
  | _ => none

/-- The route entry of a channel. -/
def State.route (s : State) (c : Channel) : Route := s.mix.routes[c]

/-- The owned channel count of an owner goes down by one. -/
def State.lowerOwned (s : State) : Option BusId → State
  | some b => s.modifyBus b fun r => { r with ownedCount := r.ownedCount - 1 }
  | none => s

/-- The owned channel count of an owner goes up by one. -/
def State.raiseOwned (s : State) : Option BusId → State
  | some b => s.modifyBus b fun r => { r with ownedCount := r.ownedCount + 1 }
  | none => s

/-- A route entry changes, with the owned channel counts of R55's last column. -/
def State.setRoute (s : State) (c : Channel) (r : Route) : State :=
  let t := (s.lowerOwned (s.route c).owner).raiseOwned r.owner
  { t with mix := { t.mix with routes := t.mix.routes.set c r } }

/-! ### Cues and their ramps (R50, R85, R99, R100) -/

/-- The cue of a tag. -/
def State.findCue (s : State) (tag : Byte) : Option Cue := s.cues.find? fun c => decide (c.tag = tag)

/-- The state with the cue of a tag changed. -/
def State.modifyCue (s : State) (tag : Byte) (f : Cue → Cue) : State :=
  { s with cues := s.cues.map fun c => if c.tag = tag then f c else c }

/-- A WAITING cue with trigger AFTER of the tag becomes NEXT, deferred while a pass of its group is in flight (R99, R84). -/
def Cue.convert (tag : Byte) (inFlight : GroupId → Bool) (c : Cue) : Cue :=
  if c.state = .waiting ∧ c.trigger = .after tag then { c with trigger := .next, deferred := inFlight c.group } else c

/-- A cue completes: its record leaves the list, CUE_DONE is raised, and its AFTER dependents become NEXT (R100). -/
def State.completeCue (s : State) (tag : Byte) : State :=
  match s.findCue tag with
  | none => s
  | some c =>
    let t := { s with cues := s.cues.filter fun d => decide (d.tag ≠ tag) }.occur .cueDone (.cueDone c.group tag)
    { t with cues := t.cues.map (Cue.convert tag fun g => (s.pass g).isSome) }

/-- The ramps outstanding count of a cue goes up by one (R85). -/
def State.raiseRamps (s : State) (tag : Byte) : State :=
  s.modifyCue tag fun c => { c with outstanding := c.outstanding + 1 }

/-- The ramps outstanding count of a cue goes down by one; an APPLYING cue that reaches 0 completes, where it may (R50, R113). -/
def State.lowerRamps (s : State) (tag : Byte) (mayComplete : Bool) : State :=
  let t := s.modifyCue tag fun c => { c with outstanding := c.outstanding - 1 }
  match t.findCue tag with
  | some c => if mayComplete ∧ c.state = .applying ∧ c.outstanding = 0 then t.completeCue tag else t
  | none => t

/-- The ramp an entry carried is gone: the count of its owner goes down by one, and the owner may complete unless it is the cue being applied (R113). -/
def State.loseRamp (s : State) (e : Entry) (applying : Option Byte) : State :=
  match e.owner with
  | some x => s.lowerRamps x (decide (applying ≠ some x))
  | none => s

/-- A crosspoint entry is removed, for whatever cause (R50). -/
def State.removeEntry (s : State) (e : Entry) (applying : Option Byte) : State :=
  ((s.setXp (xpRemove s.mix.xp e.channel e.bus)).lowerEntries e.bus).loseRamp e applying

end Sys2Proof.Machine
end

