-- ==== Sys2Proof/Machine/Operands.lean ====
section
/-! DEFINITION. Operand forms: the fields of request payloads and reply payloads (R173 to R179), and the line words of the lanes (R27, R36). -/

namespace Sys2Proof.Machine

/-! ### Fields read from a payload (R173) -/

/-- The byte at an offset of a payload. -/
def byteAt (p : List Byte) (i : Nat) : Byte := p.getD i 0

/-- Two bytes, most significant first. -/
def field16 (p : List Byte) (i : Nat) : BitVec 16 := byteAt p i ++ byteAt p (i + 1)

/-- Three bytes, most significant first. -/
def field24 (p : List Byte) (i : Nat) : BitVec 24 := byteAt p i ++ byteAt p (i + 1) ++ byteAt p (i + 2)

/-- Four bytes, most significant first. -/
def field32 (p : List Byte) (i : Nat) : BitVec 32 := byteAt p i ++ byteAt p (i + 1) ++ byteAt p (i + 2) ++ byteAt p (i + 3)

/-- A letter byte: a quad, or a group that is not a bus's (R173). -/
def letterOf (b : Byte) : Option Letter :=
  match b.toNat with
  | 0 => some .A
  | 1 => some .B
  | _ => none

/-- A bus's group byte: A, B or none (R173). -/
def busGroupOf (b : Byte) : Option (Option GroupId) :=
  match b.toNat with
  | 0 => some (some .A)
  | 1 => some (some .B)
  | 2 => some none
  | _ => none

/-- A bus or channel byte, 00h to 0Fh (R173). -/
def index16Of (b : Byte) : Option (Fin 16) := if h : b.toNat < 16 then some ⟨b.toNat, h⟩ else none

/-- A lane position or pin byte, 00h to 03h (R173). -/
def index4Of (b : Byte) : Option (Fin 4) := if h : b.toNat < 4 then some ⟨b.toNat, h⟩ else none

/-- A field with two codes, 00h and 01h: `false` for 00h (R173). -/
def bitOf (b : Byte) : Option Bool :=
  match b.toNat with
  | 0 => some false
  | 1 => some true
  | _ => none

/-- Mark mode (R173). -/
def markModeOf (b : Byte) : Option MarkMode := (bitOf b).map fun x => if x then .latch else .pulse

/-- Rounding (R173). -/
def roundingOf (b : Byte) : Option Rounding := (bitOf b).map fun x => if x then .truncate else .convergent

/-- Overflow (R173). -/
def overflowOf (b : Byte) : Option Overflow := (bitOf b).map fun x => if x then .wrap else .saturate

/-- Pin role (R173). -/
def pinRoleOf (b : Byte) : Option PinRole :=
  match b.toNat with
  | 0 => some .input
  | 1 => some .triggerRise
  | 2 => some .triggerFall
  | 3 => some .outputLow
  | 4 => some .outputHigh
  | 5 => some .markA
  | 6 => some .markB
  | 7 => some .lockedA
  | 8 => some .lockedB
  | _ => none

/-! ### The quad plan (R176) -/

/-- The half-frame lengths (R1). -/
def halfLengths : List Nat := [16, 24, 32, 48, 64, 128]

/-- Word length code of a lane byte (R176). -/
def wordLengthOf (b : BitVec 2) : WordLength :=
  match b.toNat with
  | 0 => .w16
  | 1 => .w20
  | 2 => .w24
  | _ => .w32

/-- Word length in bits. -/
def WordLength.bits : WordLength → Nat
  | .w16 => 16
  | .w20 => 20
  | .w24 => 24
  | .w32 => 32

/-- The lane description of a lane byte, not yet granted a width: requested width 1, 2 or 4 and reserved bits zero (R176). -/
def laneOf (b : Byte) : Option LanePlan :=
  let width := (b.extractLsb' 4 3).toNat
  if (width = 1 ∨ width = 2 ∨ width = 4) ∧ b.extractLsb' 2 2 = 0 then
    some { direction := if b.getLsbD 7 then .output else .input, requested := width, granted := 0,
           wordLength := wordLengthOf (b.extractLsb' 0 2) }
  else none

/-- The width a position allows, from the presence mask (R2). -/
def allowedWidth (present : LanePos → Bool) (p : LanePos) : Nat :=
  match p with
  | 0 => if ¬ present 1 ∧ ¬ present 2 ∧ ¬ present 3 then 4 else if ¬ present 1 then 2 else 1
  | 1 => 1
  | 2 => if ¬ present 3 then 2 else 1
  | 3 => 1

/-- The granted width: the smaller of the requested and the allowed (R2). -/
def grantedWidth (present : LanePos → Bool) (p : LanePos) (requested : Nat) : Nat :=
  min requested (allowedWidth present p)

/-- The lane of a position, with its granted width; the lane byte of an absent position is ignored entirely (R1, R174). -/
def planLane (payload : List Byte) (p : LanePos) : Option (Option LanePlan) :=
  let mask := byteAt payload 1
  if mask.getLsbD p.val then
    match laneOf (byteAt payload (4 + p.val)) with
    | some l => some (some { l with granted := grantedWidth (fun q => mask.getLsbD q.val) p l.requested })
    | none => none
  else some none

/-- QUAD PLAN's check 1: the quad and the plan it carries, with granted widths (R6, R176). -/
def planOf (payload : List Byte) : Option (QuadId × Plan) :=
  if payload.length = 8 ∧ (byteAt payload 1).extractLsb' 5 3 = 0 ∧ (byteAt payload 3).extractLsb' 2 6 = 0
      ∧ (byteAt payload 2).toNat ∈ halfLengths then
    match letterOf (byteAt payload 0), planLane payload 0, planLane payload 1, planLane payload 2, planLane payload 3 with
    | some q, some l0, some l1, some l2, some l3 =>
      let joined := (byteAt payload 1).getLsbD 4
      if q = .A ∧ joined then none
      else some (q, { lanes := #v[l0, l1, l2, l3], halfLength := (byteAt payload 2).toNat,
                      firstBitDelay := (byteAt payload 3).getLsbD 0,
                      polarity := if (byteAt payload 3).getLsbD 1 then .leftLow else .leftHigh,
                      joined := joined })
    | _, _, _, _, _ => none
  else none

/-- Every present lane's words fit the half-frame (R6 check 4, R8 check 5). -/
def Plan.fits (plan : Plan) (halfLength : Nat) : Bool :=
  allPositions.all fun p =>
    match plan.lanes[p] with
    | some l => decide (l.granted * l.wordLength.bits ≤ halfLength)
    | none => true

/-- The presence mask is not 0000b (R6 check 3). -/
def Plan.anyLane (plan : Plan) : Bool := allPositions.any fun p => (plan.lanes[p]).isSome

/-- The granted width of a position, 0 where it is absent (R7). -/
def Plan.width (plan : Plan) (p : LanePos) : Nat :=
  match plan.lanes[p] with
  | some l => l.granted
  | none => 0

/-! ### CUE POST (R88, R177) -/

/-- The trigger of a CUE POST: its argument fields not used must be zero (R88). -/
def triggerOf (payload : List Byte) : Option Trigger :=
  match (byteAt payload 2).toNat with
  | 0 => some (.atFrame (field32 payload 3))
  | 1 => if field32 payload 3 = 0 then some .next else none
  | 2 => if field24 payload 3 = 0 then (index4Of (byteAt payload 6)).map .pin else none
  | 3 => if field24 payload 3 = 0 then some (.after (byteAt payload 6)) else none
  | _ => none

/-- The edit record at an offset: its kind, operands and zero unused fields (R86, R177). -/
def editOf (p : List Byte) (i : Nat) : Option Edit :=
  match index16Of (byteAt p (i + 2)) with
  | none => none
  | some bus =>
    match (byteAt p i).toNat with
    | 1 => (index16Of (byteAt p (i + 1))).map fun c => .gain c bus (field24 p (i + 3))
    | 2 => if field24 p (i + 3) = 0 then (index16Of (byteAt p (i + 1))).map fun c => .drop c bus else none
    | 3 => if field24 p (i + 3) = 0 then (index16Of (byteAt p (i + 1))).map fun c => .route c bus else none
    | 4 => if field24 p (i + 3) = 0 then (index16Of (byteAt p (i + 1))).map fun c => .unroute c bus else none
    | 5 => if byteAt p (i + 1) = 0 then some (.delay bus (field24 p (i + 3)).toNat) else none
    | _ => none

/-- So many edit records from an offset, in posted order. -/
def editsOf (p : List Byte) : Nat → Nat → Option (List Edit)
  | _, 0 => some []
  | i, n + 1 =>
    match editOf p i, editsOf p (i + 6) n with
    | some e, some rest => some (e :: rest)
    | _, _ => none

/-- CUE POST's check 1: the cue a well-formed payload carries, as it would be admitted (R88, R92). -/
def cueOf (p : List Byte) : Option Cue :=
  let count := (byteAt p 9).toNat
  if 10 ≤ p.length ∧ 1 ≤ count ∧ count ≤ 8 ∧ p.length = 10 + 6 * count ∧ (field16 p 7).toNat ≤ 4095 then
    match letterOf (byteAt p 1), triggerOf p, editsOf p 10 count with
    | some g, some t, some edits =>
      some { tag := byteAt p 0, group := g, trigger := t, armed := false, deferred := false,
             rampLength := (field16 p 7).toNat, edits := edits, state := .waiting, outstanding := 0 }
    | _, _, _ => none
  else none

/-! ### Fields written into a payload (R173) -/

/-- A number in one byte. -/
def byteOf (n : Nat) : Byte := BitVec.ofNat 8 n

/-- Two bytes, most significant first. -/
def bytes16 (x : BitVec 16) : List Byte := [x.extractLsb' 8 8, x.extractLsb' 0 8]

/-- Three bytes, most significant first. -/
def bytes24 (x : BitVec 24) : List Byte := [x.extractLsb' 16 8, x.extractLsb' 8 8, x.extractLsb' 0 8]

/-- Four bytes, most significant first. -/
def bytes32 (x : BitVec 32) : List Byte := [x.extractLsb' 24 8, x.extractLsb' 16 8, x.extractLsb' 8 8, x.extractLsb' 0 8]

/-- A number in two bytes. -/
def num16 (n : Nat) : List Byte := bytes16 (BitVec.ofNat 16 n)

/-- A number in three bytes. -/
def num24 (n : Nat) : List Byte := bytes24 (BitVec.ofNat 24 n)

/-- A flag or level standing alone (R173). -/
def byteOfBool (b : Bool) : Byte := if b then 1 else 0

/-- A quad or group byte. -/
def byteOfLetter : Letter → Byte
  | .A => 0
  | .B => 1

/-- A bus's group byte. -/
def byteOfBusGroup : Option GroupId → Byte
  | some g => byteOfLetter g
  | none => 2

/-- Group state (R173). -/
def GroupState.code : GroupState → Byte
  | .off => 0
  | .acquiring => 1
  | .locked => 2
  | .lost => 3
  | .standby => 4

/-- Quad state (R173). -/
def Quad.code : Quad → Byte
  | .unplanned => 0
  | .planned _ => 1
  | .started _ => 2

/-- Mark mode (R173). -/
def MarkMode.code : MarkMode → Byte
  | .pulse => 0
  | .latch => 1

/-- Rounding (R173). -/
def Rounding.code : Rounding → Byte
  | .convergent => 0
  | .truncate => 1

/-- Overflow (R173). -/
def Overflow.code : Overflow → Byte
  | .saturate => 0
  | .wrap => 1

/-- Pin role (R173). -/
def PinRole.code : PinRole → Byte
  | .input => 0
  | .triggerRise => 1
  | .triggerFall => 2
  | .outputLow => 3
  | .outputHigh => 4
  | .markA => 5
  | .markB => 6
  | .lockedA => 7
  | .lockedB => 8

/-- Fault code (R173). -/
def FaultCode.code : FaultCode → Byte
  | .slip => 1
  | .clockLoss => 2
  | .latePass => 3
  | .underrun => 4
  | .xpFull => 5
  | .clash => 6
  | .editVoid => 7

/-- Reply status (R175). -/
def Status.code : Status → Byte
  | .ok => 0x00
  | .none => 0x01
  | .unknown => 0x02
  | .short => 0x03
  | .tooLong => 0x04
  | .badCheck => 0x05
  | .badValue => 0x06
  | .notReady => 0x07
  | .planFixed => 0x08
  | .emptyPlan => 0x09
  | .badFormat => 0x0A
  | .inUse => 0x0B
  | .dupTag => 0x0C
  | .noSuchCue => 0x0D
  | .listFull => 0x0E
  | .poolFull => 0x0F
  | .pinRole => 0x10
  | .noChannel => 0x11
  | .wrongGroup => 0x12
  | .noLine => 0x13
  | .overlap => 0x14
  | .outOfMemory => 0x15

/-- Request kind (R175). -/
def RequestKind.code : RequestKind → Byte
  | .partIdentify => 0x01
  | .partReset => 0x02
  | .pinSet => 0x03
  | .pinRead => 0x04
  | .noticeSet => 0x05
  | .faultRead => 0x06
  | .quadPlan => 0x10
  | .quadStart => 0x11
  | .laneRetire => 0x12
  | .groupPower => 0x13
  | .groupMark => 0x14
  | .groupRead => 0x15
  | .busSet => 0x18
  | .busRead => 0x19
  | .clipClear => 0x1A
  | .xpRead => 0x1B
  | .routeRead => 0x1C
  | .routeClear => 0x1D
  | .cuePost => 0x20
  | .cueCancel => 0x21
  | .cueRead => 0x22
  | .lineDefine => 0x28
  | .lineClear => 0x29
  | .lineRelease => 0x2A
  | .lineRead => 0x2B

/-- The assigned request kinds (R175). -/
def allKinds : List RequestKind :=
  [.partIdentify, .partReset, .pinSet, .pinRead, .noticeSet, .faultRead,
   .quadPlan, .quadStart, .laneRetire, .groupPower, .groupMark, .groupRead,
   .busSet, .busRead, .clipClear, .xpRead, .routeRead, .routeClear,
   .cuePost, .cueCancel, .cueRead, .lineDefine, .lineClear, .lineRelease, .lineRead]

/-- The assigned kind of a kind byte, if it is one (R145, R175). -/
def kindOf (b : Byte) : Option RequestKind := allKinds.find? fun k => decide (k.code = b)

/-! ### Records of reply payloads (R178, R179) -/

/-- The ramp fields of an XP READ entry: start, target, length, elapsed, owner, zero in STEADY (R178). -/
def rampBytes : Option Ramp → List Byte
  | some r => bytes24 r.start ++ bytes24 r.target ++ num16 r.length ++ num16 r.elapsed ++ [r.owner]
  | none => List.replicate 11 0

/-- Entry state code (R173). -/
def EntryState.code : EntryState → Byte
  | .steady => 0
  | .ramping _ => 1
  | .fading _ => 2

/-- An XP READ entry, 16 bytes (R178). -/
def Entry.bytes (e : Entry) : List Byte :=
  [byteOf e.channel.val, e.state.code] ++ bytes24 e.gain ++ rampBytes e.state.ramp

/-- A route item, 3 bytes: state, first bus, second bus (R58, R178). -/
def Route.bytes : Route → List Byte
  | .absent => [0, 0, 0]
  | .free => [1, 0, 0]
  | .owned b => [2, byteOf b.val, 0]
  | .clashed x y => [3, byteOf x.val, byteOf y.val]

/-- Trigger kind code (R173). -/
def Trigger.code : Trigger → Nat
  | .atFrame _ => 0
  | .next => 1
  | .pin _ => 2
  | .after _ => 3

/-- Trigger argument, 4 bytes (R177, R178). -/
def Trigger.argument : Trigger → List Byte
  | .atFrame n => bytes32 n
  | .next => [0, 0, 0, 0]
  | .pin k => [0, 0, 0, byteOf k.val]
  | .after t => [0, 0, 0, t]

/-- The flags byte of a cue: bit 0 group, bit 1 state, bit 2 armed, bits 5-4 trigger kind (R178). -/
def Cue.flags (c : Cue) : Byte :=
  byteOf ((match c.group with | .A => 0 | .B => 1) + (match c.state with | .waiting => 0 | .applying => 2)
    + (if c.armed then 4 else 0) + 16 * c.trigger.code)

/-- A CUE READ record, 10 bytes (R104, R178). -/
def Cue.bytes (c : Cue) : List Byte :=
  [c.tag, c.flags] ++ c.trigger.argument ++ num16 c.rampLength ++ [byteOf c.outstanding, byteOf c.edits.length]

/-- A LINE READ payload, 13 bytes (R132, R178). -/
def Line.bytes (l : Line) : List Byte :=
  num24 l.base ++ num24 l.length ++ num16 l.writeIndex ++ num16 l.delay ++
    (match l.state with
     | .clearing p => [0] ++ num16 p
     | .active => [1] ++ num16 0)

/-- The presence byte of a fault record (R179). -/
def FaultRecord.presence (f : FaultRecord) : Byte :=
  byteOf ((if f.group.isSome then 1 else 0) + (if f.channel.isSome then 2 else 0) + (if f.bus.isSome then 4 else 0)
    + (if f.secondBus.isSome then 8 else 0) + (if f.tag.isSome then 16 else 0) + (if f.frame.isSome then 32 else 0)
    + (if f.address.isSome then 64 else 0))

/-- A fault record, 15 bytes; an absent field is zero (R179, R174). -/
def FaultRecord.bytes (f : FaultRecord) : List Byte :=
  [f.presence, byteOf ((if f.repeated then 1 else 0) + (if f.lostBelow then 2 else 0)), f.code.code,
   (f.group.map byteOfLetter).getD 0, (f.channel.map fun c => byteOf c.val).getD 0, (f.bus.map fun b => byteOf b.val).getD 0,
   (f.secondBus.map fun b => byteOf b.val).getD 0, f.tag.getD 0]
  ++ bytes32 (f.frame.getD 0) ++ num24 (f.address.getD 0)

/-- The strap byte of PART IDENTIFY (R178). -/
def Straps.byte (t : Straps) : Byte :=
  byteOf ((if t.linkSel then 1 else 0) + (if t.addr0 then 2 else 0) + (if t.addr1 then 4 else 0)
    + (if t.memSz0 then 8 else 0) + (if t.memSz1 then 16 else 0))

/-! ### Line words (R27, R36) -/

/-- A line word as the capture register holds it: its own length of bits. -/
def lineBits (len : WordLength) (w : BitVec 32) : BitVec 32 :=
  match len with
  | .w16 => (w.extractLsb' 0 16).setWidth 32
  | .w20 => (w.extractLsb' 0 20).setWidth 32
  | .w24 => (w.extractLsb' 0 24).setWidth 32
  | .w32 => w

/-- The sample of a line word (R27). -/
def sampleOfWord (len : WordLength) (w : BitVec 32) : Sample :=
  match len with
  | .w16 => w.extractLsb' 0 16 ++ (0 : BitVec 8)
  | .w20 => w.extractLsb' 0 20 ++ (0 : BitVec 4)
  | .w24 => w.extractLsb' 0 24
  | .w32 => w.extractLsb' 8 24

/-- The line word of a sample (R36), in the low bits of the value. -/
def wordOfSample (len : WordLength) (x : Sample) : BitVec 32 :=
  match len with
  | .w16 => (x.extractLsb' 8 16).setWidth 32
  | .w20 => (x.extractLsb' 4 20).setWidth 32
  | .w24 => x.setWidth 32
  | .w32 => x ++ (0 : BitVec 8)

/-- The i-th bit of the line word of a sample in the order it is shifted out, the most significant first (R36). -/
def lineBit (len : WordLength) (x : Sample) (i : Nat) : Bool := (wordOfSample len x).getLsbD (len.bits - 1 - i)

/-- The DRAM word of a bus result: sign-extended to 32 bits (R126). -/
def dramWordOf (x : Sample) : DramWord := x.signExtend 32

/-- The bus result of a DRAM word: its low 24 bits (R126). -/
def sampleOfDram (w : DramWord) : Sample := w.extractLsb' 0 24

end Sys2Proof.Machine
end

