-- ==== Sys2Proof/Machine/Flags.lean ====
section
/-! DEFINITION. The flag computations (rounding, clipping, the gain step, the frame check) and the lines that follow the state: READY, the attention lines, the general pins, the lane data pins and the link's outputs. -/

namespace Sys2Proof.Machine

/-! ### Gains and sums (R67, R70 to R72) -/

/-- The gain of a ramp after k of its n passes: start plus (target - start) * k / n, the quotient truncated toward zero (R67). -/
def Ramp.gainAt (r : Ramp) (k : Nat) : Gain :=
  BitVec.ofInt 24 (r.start.toInt + ((r.target.toInt - r.start.toInt) * (k : Int)).tdiv (r.length : Int))

/-- The scale of a gain code, 2^20 (R71). -/
def gainScale : Int := 1048576

/-- The integer a bus takes from its accumulator divided by 2^20 (R71). -/
def roundSum (mode : Rounding) (acc : Int) : Int :=
  match mode with
  | .truncate => acc / gainScale
  | .convergent =>
    let low := acc / gainScale
    let rest := 2 * (acc % gainScale)
    if rest < gainScale then low
    else if gainScale < rest then low + 1
    else if low % 2 = 0 then low else low + 1

/-- The least bus result. -/
def sampleMin : Int := -8388608

/-- The greatest bus result. -/
def sampleMax : Int := 8388607

/-- The bus clips: the rounded integer lies outside the 24-bit range (R72). -/
def clips (i : Int) : Bool := decide (i < sampleMin ∨ sampleMax < i)

/-- The result of a rounded integer (R72). -/
def limit (mode : Overflow) (i : Int) : Sample :=
  match mode with
  | .saturate => BitVec.ofInt 24 (max sampleMin (min sampleMax i))
  | .wrap => BitVec.ofInt 24 i

/-- The sample a channel has in a frame record, zero where it has none (R70). -/
def sampleIn (samples : List (Channel × Sample)) (c : Channel) : Sample := (samples.lookup c).getD 0

/-- The exact sum of sample times gain over a term list (R70). -/
def accumulator (samples : List (Channel × Sample)) (terms : List (Channel × Gain)) : Int :=
  (terms.map fun t => (sampleIn samples t.1).toInt * t.2.toInt).sum

/-! ### The check (R146) -/

/-- One shift of the check register toward its most significant bit. -/
def crcShift (r : Byte) : Byte := if r.msb then (r <<< 1) ^^^ 0x07 else r <<< 1

/-- The check register after one byte. -/
def crcByte (r b : Byte) : Byte :=
  crcShift (crcShift (crcShift (crcShift (crcShift (crcShift (crcShift (crcShift (r ^^^ b))))))))

/-- The check of some bytes. -/
def check (bytes : List Byte) : Byte := bytes.foldl crcByte 0

/-- Some bytes closed by their check. -/
def withCheck (bytes : List Byte) : List Byte := bytes ++ [check bytes]

/-! ### Flow control and attention lines (R149, R161) -/

/-- READY: the request queue holds fewer than 4 frames (R149). -/
def State.ready (s : State) : Bool := decide (s.link.requests.length < Config.maxRequests)

/-- A reply is pending (R154). -/
def State.replyPending (s : State) : Bool := !s.link.replies.isEmpty

/-- A FAULT notice is pending. -/
def State.faultPending (s : State) : Bool := (s.link.notice .fault).isSome

/-- A notice of a class other than FAULT is pending. -/
def State.otherPending (s : State) : Bool :=
  allClasses.any fun c => decide (c ≠ .fault) && (s.link.notice c).isSome

/-- ATTN0 (R161). -/
def State.attn0 (s : State) : Bool :=
  s.replyPending || s.otherPending || (!s.link.twoLine && s.faultPending)

/-- ATTN1, which exists in TWO-LINE mode only (R161). -/
def State.attn1 (s : State) : Bool := s.faultPending

/-! ### General pins (R167, R170) -/

/-- GP3 is taken as ATTN1 (R161, R170). -/
def State.pinTaken (s : State) (k : PinId) : Bool := s.link.twoLine && decide (k = 3)

/-- The level a role drives, if it is an output role (R167). -/
def State.roleLevel (s : State) : PinRole → Option Bool
  | .input => none
  | .triggerRise => none
  | .triggerFall => none
  | .outputLow => some false
  | .outputHigh => some true
  | .markA => some (s.group .A).markOut
  | .markB => some (s.group .B).markOut
  | .lockedA => some (decide ((s.group .A).state = .locked))
  | .lockedB => some (decide ((s.group .B).state = .locked))

/-- What the part does to a general pin. -/
inductive PinDrive where
  | highImpedance
  | low
  | high
deriving DecidableEq, Repr

/-- The drive of a level: push-pull drives it, open-drain drives low and releases the pin for high (R167). -/
def driveOf (openDrain level : Bool) : PinDrive :=
  if level then (if openDrain then .highImpedance else .high) else .low

/-- The level a general pin follows: ATTN1 for GP3 while it is taken, otherwise what its role drives; none while it is at high impedance (R161, R167, R171). -/
def State.pinOutput (s : State) (k : PinId) : Option Bool :=
  if s.resetHeld then none
  else if s.pinTaken k then some s.attn1
  else s.roleLevel s.pins[k].role

/-- The drive of a general pin: the level it follows, by its stored drive type, GP3 while taken included (R161, R167, R171).
That a drive type stored by PIN SET while GP3 is taken acts on ATTN1 at once is the model's choice (log 29). -/
def State.pinDrive (s : State) (k : PinId) : PinDrive :=
  match s.pinOutput k with
  | none => .highImpedance
  | some level => driveOf s.pins[k].openDrain level

/-- The level present on a general pin: what the part drives, and the level the board gives it where the part leaves it alone (R167, R170; log 15). -/
def State.pinLevel (s : State) (k : PinId) : Bool :=
  match s.pinDrive k with
  | .highImpedance => s.pins[k].board
  | .low => false
  | .high => true

/-- The level PIN READ gives: the level on the pin, but ATTN1's for GP3 while it is taken (R170; log 19). -/
def State.reportedLevel (s : State) (k : PinId) : Bool :=
  if s.pinTaken k then s.attn1 else s.pinLevel k

/-! ### Lane data pins (R1, R3, R10, R35 to R37) -/

/-- What a lane data pin does. -/
inductive LaneDrive where
  | highImpedance
  | captured
  | drivenLow
  | words
deriving DecidableEq, Repr

/-- The drive of a lane data pin. -/
def State.laneDrive (s : State) (q : QuadId) (p : LanePos) : LaneDrive :=
  match (s.quad q).startedPlan with
  | none => .highImpedance
  | some plan =>
    match plan.lanes[p] with
    | none => .highImpedance
    | some l =>
      match l.direction with
      | .input => .captured
      | .output =>
        if q = .B ∧ s.bJoined ∧ ¬ s.lane.joinedDriven then .highImpedance
        else if (s.group (s.groupOfQuad q)).state = .locked then .words
        else .drivenLow

/-- The line word an output channel carries: its settled sample at its lane's word length (R36). -/
def State.outputWord (s : State) (c : Channel) : Option (BitVec 32) :=
  match s.channelLane c with
  | some (_, l) => if l.direction = .output then some (wordOfSample l.wordLength s.word.settled[c]) else none
  | none => none

/-- The other half of a frame. -/
def Side.other : Side → Side
  | .left => .right
  | .right => .left

/-- The channel of a slot of a quad. -/
def slotChannel (q : QuadId) (slot : Nat) : Channel :=
  match q with
  | .A => Fin.ofNat 16 slot
  | .B => Fin.ofNat 16 (8 + slot)

/-- The slot of a lane's word i on a side: 2p + 2i in the left half-frame and 2p + 2i + 1 in the right (R3). -/
def wordSlot (p : LanePos) (side : Side) (i : Nat) : Nat :=
  2 * p.val + 2 * i + (match side with | .left => 0 | .right => 1)

/-- The level at a bit position of a half-frame: word i occupies the positions d + i * len to d + (i + 1) * len - 1, and positions that no word covers are low (R3, R36). -/
def wordBit (q : QuadId) (p : LanePos) (l : LanePlan) (d : Nat) (side : Side) (sample : Vector Sample 16) (position : Nat) : Bool :=
  let len := l.wordLength.bits
  if d ≤ position ∧ position < d + l.granted * len then
    lineBit l.wordLength sample[slotChannel q (wordSlot p side ((position - d) / len))] ((position - d) % len)
  else false

/-- The samples of the half-frame that ends where one of a side begins: before a left half-frame they are those of the frame before,
which a frame start made at the edge has replaced (R3, R31). -/
def State.endingSamples (s : State) (g : GroupId) (side : Side) : Vector Sample 16 :=
  match side with
  | .right => s.word.settled
  | .left => if (s.group g).startDue then s.word.settled else s.word.previous

/-- The level of an OUT lane that shifts words, at a bit position of the half-frame of a side in progress (R3, R4, R36).
With a first-bit delay of 1, position 0 still belongs to the half-frame before. With a delay of 0, a half-frame that has counted
its length already gives the first bit of the next one. -/
def State.shiftedLevel (s : State) (q : QuadId) (p : LanePos) (l : LanePlan) (format : Plan) (side : Side) (position : Nat) : Bool :=
  if format.firstBitDelay then
    if position = 0 then wordBit q p l 1 side.other (s.endingSamples (s.groupOfQuad q) side) format.halfLength
    else wordBit q p l 1 side s.word.settled position
  else if position = format.halfLength then wordBit q p l 0 side.other s.word.settled 0
  else wordBit q p l 0 side s.word.settled position

/-- The level the part gives a lane data pin at a bit position of the half-frame of a side in progress; none at high impedance.
The format is that of the quad whose pins frame the lane (R3, R5, R35, R36). -/
def State.laneLevel (s : State) (q : QuadId) (p : LanePos) (side : Side) (position : Nat) : Option Bool :=
  match s.laneDrive q p with
  | .highImpedance => none
  | .captured => none
  | .drivenLow => some false
  | .words =>
    match (s.quad q).startedPlan, (s.quad (s.groupOfQuad q)).startedPlan with
    | some plan, some format =>
      match plan.lanes[p] with
      | some l => some (s.shiftedLevel q p l format side position)
      | none => none
    | _, _ => none

/-! ### The link's mode, address and outputs (R143, R144, R156) -/

/-- The link is in two-wire mode. -/
def State.twoWire (s : State) : Bool := s.straps.linkSel

/-- The part's two-wire address: 1011 0 followed by ADDR1 and ADDR0 (R144). -/
def State.linkAddress (s : State) : BitVec 7 :=
  (0b10110 : BitVec 5) ++ BitVec.ofBool s.straps.addr1 ++ BitVec.ofBool s.straps.addr0

/-- The filler byte: 00h in SPI mode, FFh in two-wire mode (R143, R144). -/
def State.filler (s : State) : Byte := if s.twoWire then 0xFF else 0x00

/-- A byte of an outgoing frame, or filler once the frame has ended or where there is none (R143, R144). -/
def State.frameByte (s : State) (outgoing : Option Outgoing) (i : Nat) : Byte :=
  match outgoing with
  | some o => o.bytes.getD i s.filler
  | none => s.filler

/-- The i-th byte the part sends in the transfer in progress: none where there is no transfer, in a write transfer, and while RESET is held (R143, R144, R156).
An interval that a hardware reset cut off is no transfer, even while SS stays low after RESET is released: that is the model's choice (log 28). -/
def State.outgoingByte (s : State) (i : Nat) : Option Byte :=
  if s.resetHeld then none
  else match s.link.transfer with
    | none => none
    | some t =>
      match t.form with
      | .twoWireWrite => none
      | .spi => some (s.frameByte t.outgoing i)
      | .twoWireRead => some (s.frameByte t.outgoing i)

/-- The i-th bit the part sends in the transfer in progress, each byte most significant bit first (R143). -/
def State.outgoingBit (s : State) (i : Nat) : Option Bool := (s.outgoingByte (i / 8)).map fun b => b.getMsbD (i % 8)

/-- MISO while the i-th bit of an SS-low interval is on it; none is high impedance: while SS is high, in two-wire mode, and while RESET is held (R143, R156), and after its release until SS next falls (log 28). -/
def State.miso (s : State) (i : Nat) : Option Bool := if s.twoWire then none else s.outgoingBit i

/-- The bit clocks of SDA at which the part may pull it low: the acknowledge of an address byte, that of a data byte the host sends, and the i-th bit of a read. -/
inductive SdaSlot where
  | addressAck
  | dataAck
  | bit (i : Nat)
deriving DecidableEq, Repr

/-- A two-wire write transfer is in progress: the part acknowledges every data byte of it (R144). -/
def State.acksData (s : State) : Bool := decide (s.link.transfer.map Transfer.form = some .twoWireWrite)

/-- The part pulls SDA low; otherwise it releases it, as it does while RESET is held and throughout in SPI mode (R144, R156; log 5). -/
def State.sdaLow (s : State) (slot : SdaSlot) : Bool :=
  s.twoWire && !s.resetHeld && (match slot with
    | .addressAck => s.link.addressAck
    | .dataAck => s.acksData
    | .bit i => decide (s.outgoingBit i = some false))

/-- The part never holds SCL low (R144). -/
def State.sclLow (_ : State) : Bool := false

/-! ### DRAM rows (R126, R140) -/

/-- The row of a word address. -/
def rowOf (address : Nat) : Nat := address / Config.rowWords

/-- An access begun now is fast: its row is the open row (R126). -/
def MemoryPort.isFast (m : MemoryPort) (address : Nat) : Bool := decide (m.openRow = some (rowOf address))

/-- REFCLK periods of an access (R126). -/
def Access.periods : Access → Nat
  | .read _ _ fast => if fast then Config.fastPeriods else Config.slowPeriods
  | .write _ _ fast => if fast then Config.fastPeriods else Config.slowPeriods
  | .refresh => Config.refreshPeriods

end Sys2Proof.Machine
end

