-- ==== Sys2Proof/Machine/Executor.lean ====
section
/-! DEFINITION. The executor (R150): taking the oldest received frame, handing it to its block, and making the reply; and the bytes of replies and notices (R147, R179). -/

namespace Sys2Proof.Machine

/-- What a block answers to a request: the state after it, the status and the reply payload. -/
structure Answer where
  state : State
  status : Status
  payload : List Byte
deriving DecidableEq, Repr

/-- The request is carried out and answered OK. -/
def State.accept (s : State) (payload : List Byte) : Answer := { state := s, status := .ok, payload := payload }

/-- The request is refused with no payload; the state is unchanged. -/
def State.refuse (s : State) (status : Status) : Answer := { state := s, status := status, payload := [] }

/-- The reply kind byte: 80h plus the low six bits of the received kind byte (R147). -/
def replyKind (kind : Byte) : Byte := 0x80 ||| (kind &&& 0x3F)

/-- The status byte: the code in the low seven bits, the overrun flag in the top bit (R147). -/
def statusByte (status : Status) (overrun : Bool) : Byte := status.code ||| (if overrun then 0x80 else 0x00)

/-- A reply is made: it reports the overrun flag as it stands and clears it, and joins the reply queue (R150, R151). -/
def State.makeReply (s : State) (f : ReceivedFrame) (status : Status) (payload : List Byte) : State :=
  { s with link := { s.link with
      replies := s.link.replies ++
        [{ kind := replyKind f.kind, tag := f.tag, status := statusByte status s.link.overrun, payload := payload }]
      overrun := false } }

/-- The frame the executor can take now: the oldest of the request queue, when the reply queue holds fewer than 4 replies (R150). -/
def State.takeable (s : State) : Option ReceivedFrame :=
  if s.link.replies.length < Config.maxReplies then s.link.requests.head? else none

/-- The executor takes the oldest frame if it is one the command takes, hands it to its block and makes the reply (R150).
When there is no such frame the event cannot occur, and nothing changes (log 1). -/
def State.takeFrame (s : State) (takes : ReceivedFrame → Bool) (run : ReceivedFrame → State → Answer) : State :=
  match s.takeable with
  | none => s
  | some f =>
    if takes f then
      let a := run f { s with link := { s.link with requests := s.link.requests.tail } }
      a.state.makeReply f a.status a.payload
    else s

/-- The frame is a request of a kind. -/
def ReceivedFrame.isKind (kind : RequestKind) (f : ReceivedFrame) : Bool := decide (f.outcome = .request kind)

/-- The executor takes a request of a kind and hands its payload to a block. -/
def State.takeRequest (s : State) (kind : RequestKind) (run : List Byte → State → Answer) : State :=
  s.takeFrame (ReceivedFrame.isKind kind) fun f t => run f.payload t

/-- The bytes of a reply frame (R147). -/
def Reply.bytes (r : Reply) : List Byte :=
  withCheck ([r.kind, r.tag, r.status, byteOf r.payload.length] ++ r.payload)

/-- The class bytes of a notice payload; a live payload is read from the state when the frame is built (R158, R179). -/
def State.noticeBody (s : State) (cls : NoticeClass) : NoticePayload → List Byte
  | .live =>
    match cls with
    | .lock => [(s.group .A).state.code, (s.group .B).state.code]
    | _ => [byteOf s.faults.length]
  | .cueDone g tag => [byteOfLetter g, tag]
  | .clip mask => bytes16 mask
  | .mark mask => [mask.setWidth 8]
  | .line b => [byteOf b.val]
  | .pin k high => [byteOf k.val, byteOfBool high]

/-- The bytes of a notice frame (R147, R179). -/
def State.noticeBytes (s : State) (cls : NoticeClass) (n : PendingNotice) : List Byte :=
  let payload := byteOfBool n.more :: s.noticeBody cls n.payload
  withCheck ([0xC0 + byteOf cls.index.val, byteOf payload.length] ++ payload)

end Sys2Proof.Machine
end

