-- ==== Sys2Proof/Machine/Pins.lean ====
section
/-! DEFINITION. The pin unit (Chapter 10): PIN_SET, PIN_READ and PIN_EDGE. -/

namespace Sys2Proof.Machine

/-- The state with one general pin replaced. -/
def State.setPin (s : State) (k : PinId) (p : GeneralPin) : State := { s with pins := s.pins.set k p }

/-- The reference level is set to the level sensed at this moment (R168). -/
def State.resetReference (s : State) (k : PinId) : State :=
  s.setPin k { s.pins[k] with reference := some (s.pinLevel k) }

/-- A trigger role (R97). -/
def PinRole.isTrigger : PinRole → Bool
  | .triggerRise => true
  | .triggerFall => true
  | _ => false

/-- A WAITING cue in the list has trigger PIN of the pin. -/
def State.cueWaitsOnPin (s : State) (k : PinId) : Bool :=
  s.cues.any fun c => decide (c.state = .waiting ∧ c.trigger = .pin k)

/-- PIN SET (R169): the settings are stored and the pin acts on them at once. For GP3 while taken the pin unit acts on the role and the report flag when it is handed back; the drive type acts on ATTN1 at once (R161; log 29). -/
def pinSet (payload : List Byte) (s : State) : Answer :=
  match index4Of (byteAt payload 0), pinRoleOf (byteAt payload 1), bitOf (byteAt payload 2), bitOf (byteAt payload 3) with
  | some k, some role, some openDrain, some report =>
    if payload.length ≠ 4 ∨ (report ∧ role ≠ .input) then s.refuse .badValue
    else if s.pins[k].role.isTrigger ∧ ¬ role.isTrigger ∧ s.cueWaitsOnPin k then s.refuse .inUse
    else
      let t := s.setPin k { s.pins[k] with role := role, openDrain := openDrain, report := report }
      (if t.pinTaken k then t else t.resetReference k).accept []
  | _, _, _, _ => s.refuse .badValue

/-- PIN_SET (R169). -/
def execPinSet (s : State) : Host.Outcome State Fault Refusal :=
  .next (s.takeRequest .pinSet pinSet)

/-- The five bytes of a pin in PIN READ (R170, R178). -/
def State.pinBytes (s : State) (k : PinId) : List Byte :=
  [byteOfBool (s.reportedLevel k), s.pins[k].role.code, byteOfBool s.pins[k].openDrain, byteOfBool s.pins[k].report,
   byteOfBool (s.pinTaken k)]

/-- PIN READ (R170). -/
def pinRead (payload : List Byte) (s : State) : Answer :=
  if payload ≠ [] then s.refuse .badValue
  else s.accept (s.pinBytes 0 ++ s.pinBytes 1 ++ s.pinBytes 2 ++ s.pinBytes 3)

/-- PIN_READ (R170). -/
def execPinRead (s : State) : Host.Outcome State Fault Refusal :=
  .next (s.takeRequest .pinRead pinRead)

/-- A trigger edge on a pin sets the armed flag of every WAITING cue whose trigger is PIN of it (R97). -/
def State.armCues (s : State) (k : PinId) : State :=
  { s with cues := s.cues.map fun c => if c.state = .waiting ∧ c.trigger = .pin k then { c with armed := true } else c }

/-- An edge to a level is judged against the pin's role; on GP3 while taken it is neither a trigger edge nor a report (R168). -/
def State.judgeEdge (s : State) (k : PinId) (high : Bool) : State :=
  if s.pinTaken k then s
  else match s.pins[k].role with
    | .triggerRise => if high then s.armCues k else s
    | .triggerFall => if high then s else s.armCues k
    | .input => if s.pins[k].report then s.occur .pin (.pin k high) else s
    | _ => s

/-- The pin unit senses a pin: a level that differs from the reference level is an edge, and the reference takes the level (R168).
The first level sensed after a reset is no edge (R171). -/
def State.sense (s : State) (k : PinId) : State :=
  let t := s.resetReference k
  if s.pins[k].reference = some (!s.pinLevel k) then t.judgeEdge k (s.pinLevel k) else t

/-- PIN_EDGE (R168): the board gives a pin a level, and the pin unit senses the pin where a rising edge of REFCLK comes before the next command (log 26). While RESET is held no edge is sensed (R171). -/
def execPinEdge (k : PinId) (change : PinChange) (s : State) : Host.Outcome State Fault Refusal :=
  .next (
    let t := s.setPin k { s.pins[k] with board := change.high }
    if change.sensed ∧ ¬ t.resetHeld then t.sense k else t)

end Sys2Proof.Machine
end

