-- ==== Sys2Proof/Machine/Cues.lean ====
section
/-! DEFINITION. The cue list's requests (Chapter 5): CUE_POST, CUE_CANCEL, CUE_READ. -/

namespace Sys2Proof.Machine

/-! ### Posting a cue -/

/-- Check 4 of CUE POST (R90). -/
def State.checkTrigger (s : State) (c : Cue) : Option Status :=
  match c.trigger with
  | .pin k => if s.pins[k].role.isTrigger ∧ ¬ s.pinTaken k then none else some .pinRole
  | .after t => if s.cues.any fun d => decide (d.tag = t ∧ d.group = c.group) then none else some .noSuchCue
  | _ => none

/-- The first operand is a channel that exists, of the direction the kind asks for (R91, a). -/
def State.operandExists (s : State) : Edit → Bool
  | .gain c _ _ => s.isInput c
  | .drop c _ => s.isInput c
  | .route c _ => decide (s.route c ≠ .absent)
  | .unroute c _ => decide (s.route c ≠ .absent)
  | .delay _ _ => true

/-- The bus's group is the cue's group, and so is the channel's (R91, b). -/
def State.operandInGroup (s : State) (g : GroupId) (e : Edit) : Bool :=
  decide ((s.bus e.bus).group = some g) &&
  (match e.channel with
   | some c => decide (s.groupOfChannel c = g)
   | none => true)

/-- The conditions of check 5 on one edit, in order (R91). -/
def State.checkEdit (s : State) (g : GroupId) (e : Edit) : Option Status :=
  if ¬ s.operandExists e then some .noChannel
  else if ¬ s.operandInGroup g e then some .wrongGroup
  else match e with
    | .delay b d =>
      match s.line b with
      | none => some .noLine
      | some l => if d < l.length then none else some .badValue
    | _ => none

/-- Check 5 of CUE POST: the first failing edit, by its position in posted order, with its status (R91). -/
def State.checkEdits (s : State) (g : GroupId) : List Edit → Nat → Option (Status × Nat)
  | [], _ => none
  | e :: rest, i =>
    match s.checkEdit g e with
    | some st => some (st, i)
    | none => s.checkEdits g rest (i + 1)

/-- A cue is admitted: it is appended as WAITING and its edits enter the pool (R92, R87). -/
def State.enterCue (s : State) (c : Cue) : State :=
  { s.takeHolds c.edits with cues := s.cues ++ [c] }

/-- CUE POST: the seven checks in order, and the admission (R88 to R92). -/
def cuePost (payload : List Byte) (s : State) : Answer :=
  match cueOf payload with
  | none => s.refuse .badValue
  | some c =>
    if (s.findCue c.tag).isSome then s.refuse .dupTag
    else if (s.group c.group).state = .off then s.refuse .notReady
    else match s.checkTrigger c with
      | some st => s.refuse st
      | none =>
        match s.checkEdits c.group c.edits 1 with
        | some (st, i) => { state := s, status := st, payload := [byteOf i] }
        | none =>
          if Config.maxCues ≤ s.cues.length then s.refuse .listFull
          else if s.poolFree < c.edits.length then s.refuse .poolFull
          else
            let t := s.enterCue c
            t.accept [byteOf t.cues.length, byteOf t.poolFree]

/-- CUE_POST (R92). -/
def execCuePost (s : State) : Host.Outcome State Fault Refusal :=
  .next (s.takeRequest .cuePost cuePost)

/-! ### Cancelling a cue -/

/-- An entry whose ramp a cancelled cue owns becomes STEADY at its gain (R121). -/
def Entry.freeze (tag : Byte) (e : Entry) : Entry :=
  if e.owner = some tag then { e with state := .steady } else e

/-- A WAITING cue chained by AFTER to one of some tags (R103). -/
def Cue.dependsOn (tags : List Byte) (c : Cue) : Bool :=
  decide (c.state = .waiting) &&
  (match c.trigger with
   | .after t => decide (t ∈ tags)
   | _ => false)

/-- The tags the cascade removes with some removed tags: layer by layer, until no cue names a removed one (R103). -/
def cascade (cues : List Cue) : Nat → List Byte → List Byte
  | 0, tags => tags
  | n + 1, tags =>
    let layer := (cues.filter fun c => c.dependsOn tags && decide (c.tag ∉ tags)).map Cue.tag
    if layer.isEmpty then tags else cascade cues n (tags ++ layer)

/-- The cues of some tags leave the list, uncompleted: the edits they hold leave the pool, and the ramps an APPLYING one owns are frozen (R101 to R103). -/
def State.withdrawCues (s : State) (tags : List Byte) : State :=
  let gone := s.cues.filter fun c => decide (c.tag ∈ tags)
  let t := s.releaseHolds (gone.flatMap Cue.edits)
  let frozen := (gone.filter fun c => decide (c.state = .applying)).foldl (fun xp c => xp.map (Entry.freeze c.tag)) t.mix.xp
  { t.setXp frozen with cues := s.cues.filter fun c => decide (c.tag ∉ tags) }

/-- CUE CANCEL (R101 to R103). -/
def cueCancel (payload : List Byte) (s : State) : Answer :=
  if payload.length ≠ 1 then s.refuse .badValue
  else
    let tag := byteAt payload 0
    match s.findCue tag with
    | none => s.refuse .noSuchCue
    | some _ =>
      let tags := cascade s.cues s.cues.length [tag]
      (s.withdrawCues tags).accept [byteOf tags.length]

/-- CUE_CANCEL (R101). -/
def execCueCancel (s : State) : Host.Outcome State Fault Refusal :=
  .next (s.takeRequest .cueCancel cueCancel)

/-! ### Reading the list -/

/-- CUE READ (R104, R178): at most five cues from a position on. -/
def cueRead (payload : List Byte) (s : State) : Answer :=
  let start := (byteAt payload 0).toNat
  if payload.length ≠ 1 ∨ 23 < start then s.refuse .badValue
  else
    let cs := s.cues.drop start
    s.accept ([byteOf s.cues.length, byteOf s.poolFree, byteOf (cs.take 5).length, byteOfBool (decide (5 < cs.length))]
      ++ (cs.take 5).flatMap Cue.bytes)

/-- CUE_READ (R104). -/
def execCueRead (s : State) : Host.Outcome State Fault Refusal :=
  .next (s.takeRequest .cueRead cueRead)

end Sys2Proof.Machine
end

