-- ==== Sys2Proof/Machine/Groups.lean ====
section
/-! DEFINITION. What a clock group's changes of state do (R14, R19, R20, R23, R25, R34, R35, R80), and what a frame arrival does to the mark and the mix engine (R22, R28, R63, R78). -/

namespace Sys2Proof.Machine

/-- The vector with the chosen places filled. -/
def fillWhere {α : Type} {n : Nat} (v : Vector α n) (chosen : Fin n → Bool) (x : α) : Vector α n :=
  Vector.ofFn fun i => if chosen i then x else v[i]

/-- An empty capture register. -/
def Capture.empty : Capture := { count := 0, bits := 0 }

/-- An empty output slot. -/
def OutSlot.empty : OutSlot := { value := 0, fresh := false }

/-- Capture registers of some channels are emptied (R25). -/
def State.emptyCapture (s : State) (chosen : Channel → Bool) : State :=
  { s with word := { s.word with capture := fillWhere s.word.capture chosen Capture.empty } }

/-- The samples some channels transmit become zero: their lanes are driven low or at high impedance from now (R35, R12). -/
def State.silence (s : State) (chosen : Channel → Bool) : State :=
  { s with word := { s.word with
      settled := fillWhere s.word.settled chosen 0
      previous := fillWhere s.word.previous chosen 0 } }

/-- The output slots and last words of some channels are cleared (R30, R34). -/
def State.clearOutputs (s : State) (chosen : Channel → Bool) : State :=
  { s with word := { s.word with
      outSlot := fillWhere s.word.outSlot chosen OutSlot.empty
      lastWord := fillWhere s.word.lastWord chosen 0 } }

/-- A pass in flight learns that its group has left LOCKED (R62, R80). -/
def State.markLeftLocked (s : State) (g : GroupId) : State :=
  s.setPass g ((s.pass g).map fun p => { p with leftLocked := true })

/-- A joined quad B's OUT lanes are driven once group A is outside LOCKED or makes a frame start (R10). -/
def State.driveJoined (s : State) (g : GroupId) : State :=
  { s with lane := { s.lane with joinedDriven := s.lane.joinedDriven || (decide (g = .A) && s.bJoined) } }

/-- What leaving LOCKED does beyond the group's own state: a pulse ends, the output lanes are driven low, and a pass in flight is told (R23, R35, R80). -/
def State.departLocked (s : State) (g : GroupId) : State :=
  let G := s.group g
  ((((s.setGroup g { G with markOut := if G.markMode = .pulse then false else G.markOut }).silence
    (s.isOutputOf g)).markLeftLocked g).driveJoined g)

/-- A group goes to LOST or STANDBY: no half-frame is in progress, the loss timer stops, capture ends, and LOCK is raised (R14, R17 to R20, R25). -/
def State.haltGroup (s : State) (g : GroupId) (st : GroupState) : State :=
  let t := if (s.group g).state = .locked then s.departLocked g else s
  let u := t.emptyCapture (s.isInputOf g)
  (u.setGroup g { u.group g with
    state := st, count := 0, half := none, goodLeft := false, startDue := false, startMade := false,
    lossTimer := false }).occur .lock .live

/-- A group enters ACQUIRING: count 0, no half-frame in progress, the loss timer started, and LOCK raised (R9, R15, R18, R19, R20). -/
def State.acquire (s : State) (g : GroupId) : State :=
  (s.setGroup g { s.group g with
    state := .acquiring, count := 0, half := none, goodLeft := false, startDue := false, startMade := false,
    lossTimer := true }).occur .lock .live

/-- A group enters LOCKED: its output slots and last words are cleared, its first-frame flag is set, and LOCK is raised (R15, R34, R14). -/
def State.enterLocked (s : State) (g : GroupId) : State :=
  let t := s.clearOutputs (s.isOutputOf g)
  let u := t.setGroup g { t.group g with state := .locked, count := 0 }
  { u with word := { u.word with firstFrame := u.word.firstFrame.set g true } }.occur .lock .live

/-- A half-frame begins (R4, R15): the registers of its words are to be gathered afresh (R25), and a left half-frame of group A begins the capture of a joined quad B (R10). -/
def State.beginHalf (s : State) (g : GroupId) (side : Side) : State :=
  let t := s.emptyCapture fun c => s.isInputOf g c && decide (channelSide c = side)
  let u := t.setGroup g { t.group g with half := some { side := side, length := 0 } }
  { u with lane := { u.lane with
      joinedCapture := u.lane.joinedCapture || (decide (g = .A ∧ side = .left) && u.bJoined) } }

/-! ### What a frame arrival does -/

/-- A channel appears in its group's frame records: a channel of a joined quad B only from the first frame whose left half-frame began after its start (R10, R28). -/
def State.inRecord (s : State) (g : GroupId) (c : Channel) : Bool :=
  s.isInputOf g c && (decide (channelQuad c = g) || s.lane.joinedCapture)

/-- The samples of a frame record, in ascending order of channel (R28). -/
def State.frameSamples (s : State) (g : GroupId) : List (Channel × Sample) :=
  (allChannels.filter (s.inRecord g)).map fun c => (c, s.word.inSlot[c])

/-- The bus set of a pass that begins now: the group's buses in ascending order with their settings (R63). -/
def State.busSet (s : State) (g : GroupId) : List PassBus :=
  (allBuses.filter fun b => decide ((s.bus b).group = some g)).map fun b =>
    { bus := b, rounding := (s.bus b).rounding, overflow := (s.bus b).overflow, terms := [], result := 0,
      progress := .waiting }

/-- A frame arrival at the mix engine: a pass begins when the context is IDLE, and otherwise the arrival is a late pass (R63, R78). -/
def State.passArrival (s : State) (g : GroupId) (n : FrameNo) : State :=
  match s.pass g with
  | none => s.setPass g (some { frame := n, samples := s.frameSamples g, buses := s.busSet g, outstanding := [],
                                 leftLocked := false, stage := .cueStart, wait := none })
  | some p => s.pushFault { FaultRecord.of .latePass g n with address := p.outstanding.head?.map Prod.fst }

/-- The bit of a group in the MARK notice's mask (R173, R179). -/
def groupBit : GroupId → BitVec 2
  | .A => 0b01
  | .B => 0b10

/-- The mark comparison at a frame arrival: a pulse ends, and the output rises and MARK is raised when the counter's new value is the mark (R22, R23). -/
def State.compareMark (s : State) (g : GroupId) : State :=
  let G := s.group g
  if G.counter = G.mark then (s.setGroup g { G with markOut := true }).occur .mark (.mark (groupBit g))
  else s.setGroup g { G with markOut := if G.markMode = .pulse then false else G.markOut }

end Sys2Proof.Machine
end

