-- ==== Sys2Proof/Machine/WordPath.lean ====
section
/-! DEFINITION. The word path (Chapter 2): WORD_COMPLETE and FRAME_START. -/

namespace Sys2Proof.Machine

/-- The bit clocks of a half-frame that have passed when a lane's word i is complete: it ends at bit position d + (i + 1) * len - 1,
and the last bit of words that fill the half-frame exactly with d = 1 falls at the ending edge (R3, R25). -/
def wordEnd (plan : Plan) (p : LanePos) (l : LanePlan) (c : Channel) : Nat :=
  min ((if plan.firstBitDelay then 1 else 0) + (wordIndex p (channelSlot c) + 1) * l.wordLength.bits) plan.halfLength

/-- The word of a channel can complete now: its group captures, the half-frame in progress is its side, a joined quad B's capture has begun, and the word has not yet been gathered in this half-frame (R10, R25; log 5). -/
def State.canComplete (s : State) (c : Channel) (l : LanePlan) (h : HalfFrame) : Bool :=
  let G := s.group (s.groupOfChannel c)
  decide (l.direction = .input) && decide (G.state = .acquiring ∨ G.state = .locked) && decide (h.side = channelSide c) &&
  (decide (channelQuad c = s.groupOfChannel c) || s.lane.joinedCapture) && decide (s.word.capture[c].count = 0)

/-- WORD_COMPLETE (R27): the capture register holds the whole word, and its sample is written into the channel's input slot. -/
def execWordComplete (c : Channel) (bits : BitVec 32) (s : State) : Host.Outcome State Fault Refusal :=
  .next (
    let g := s.groupOfChannel c
    match (s.quad g).startedPlan, s.channelLane c, (s.group g).half with
    | some plan, some (p, l), some h =>
      if s.canComplete c l h then
        let t := s.setGroup g { s.group g with half := some { h with length := max h.length (wordEnd plan p l c) } }
        { t with word := { t.word with
            capture := t.word.capture.set c { count := l.wordLength.bits, bits := lineBits l.wordLength bits }
            inSlot := t.word.inSlot.set c (sampleOfWord l.wordLength bits) } }
      else s
    | _, _, _ => s)

/-- An output channel transmits a repeated last word at a frame start: it is OWNED and its slot is not fresh (R32). -/
def State.underruns (s : State) (c : Channel) : Bool :=
  (s.route c).owner.isSome && !s.word.outSlot[c].fresh

/-- The sample an output channel transmits from a frame start (R32). -/
def State.settledSample (s : State) (c : Channel) : Sample :=
  match (s.route c).owner with
  | some _ => if s.word.outSlot[c].fresh then s.word.outSlot[c].value else s.word.lastWord[c]
  | none => 0

/-- The output slot after a frame start: the fresh flag is cleared, and the value of a channel without an owner is discarded (R32). That the discarded slot then holds 0 is the model's choice (log 27). -/
def State.takenSlot (s : State) (c : Channel) : OutSlot :=
  match (s.route c).owner with
  | some _ => { s.word.outSlot[c] with fresh := false }
  | none => OutSlot.empty

/-- The samples of the frame before, once a frame start has settled those of the next: the last bit of one can still fall at the edge (R3, R31). -/
def State.replacedSamples (s : State) (g : GroupId) : Vector Sample 16 :=
  Vector.ofFn fun c => if s.isOutputOf g c then s.word.settled[c] else s.word.previous[c]

/-- The frame start settles the samples of the group's output channels (R31, R32). -/
def State.settle (s : State) (g : GroupId) : State :=
  { s with word := { s.word with
      settled := Vector.ofFn fun c => if s.isOutputOf g c then s.settledSample c else s.word.settled[c]
      previous := s.replacedSamples g
      lastWord := Vector.ofFn fun c => if s.isOutputOf g c then s.settledSample c else s.word.lastWord[c]
      outSlot := Vector.ofFn fun c => if s.isOutputOf g c then s.takenSlot c else s.word.outSlot[c] } }

/-- The first frame start in LOCKED after lock: every output channel of the group transmits zero, its fresh flag and last word are cleared, and the first-frame flag is cleared (R34). -/
def State.settleFirst (s : State) (g : GroupId) : State :=
  { s with word := { s.word with
      settled := fillWhere s.word.settled (s.isOutputOf g) 0
      previous := s.replacedSamples g
      lastWord := fillWhere s.word.lastWord (s.isOutputOf g) 0
      outSlot := Vector.ofFn fun c => if s.isOutputOf g c then { s.word.outSlot[c] with fresh := false } else s.word.outSlot[c]
      firstFrame := s.word.firstFrame.set g false } }

/-- A frame start in LOCKED that belongs to frame n (R31 to R34): one UNDERRUN names the first channel that repeats its last word. -/
def State.frameStartLocked (s : State) (g : GroupId) (n : FrameNo) : State :=
  if s.word.firstFrame.get g then (s.settleFirst g).driveJoined g
  else
    let t := (s.settle g).driveJoined g
    match allChannels.find? fun c => s.isOutputOf g c && s.underruns c with
    | some c => t.pushFault { FaultRecord.of .underrun g n with channel := some c }
    | none => t

/-- FRAME_START (R31), in LOCKED and in the right half-frame of a frame that has been LOCKED throughout.
With a first-bit delay of 0 the samples are settled here, half a bit clock before the arrival: the half-frame counts as full, and the frame start belongs to the counter plus one.
With a delay of 1 the frame start falls at the edge that ends the half-frame, and only if that edge leaves the group LOCKED: a FRAME_START that comes before the edge has it taken there before the arrival, and one that comes after the arrival settles the samples then, under the counter as it stands (log 7).
Outside LOCKED a frame start settles nothing (R35). -/
def execFrameStart (g : GroupId) (s : State) : Host.Outcome State Fault Refusal :=
  .next (
    let G := s.group g
    match G.state, (s.quad g).startedPlan with
    | .locked, some plan =>
      if G.startDue then (s.setGroup g { G with startDue := false }).frameStartLocked g G.counter
      else match G.half with
        | some h =>
          if h.side = .right ∧ G.goodLeft ∧ ¬ G.startMade then
            if plan.firstBitDelay then s.setGroup g { G with startMade := true }
            else (s.setGroup g { G with startMade := true, half := some { h with length := plan.halfLength } }).frameStartLocked g
              (G.counter + 1)
          else s
        | none => s
    | _, _ => s)

end Sys2Proof.Machine
end

