-- ==== Sys2Proof/Machine/Lanes.lean ====
section
/-! DEFINITION. The lane interface (Chapter 1): QUAD_PLAN, QUAD_START, LANE_RETIRE, GROUP_POWER, GROUP_MARK, GROUP_READ, WORD_SELECT_EDGE, LOSS_TIMER_EXPIRY. -/

namespace Sys2Proof.Machine

/-! ### Planning and starting a quad -/

/-- QUAD PLAN (R6, R7). For a joined quad B check 4 is made at QUAD START instead. -/
def quadPlan (payload : List Byte) (s : State) : Answer :=
  match planOf payload with
  | none => s.refuse .badValue
  | some (q, plan) =>
    if (s.quad q).startedPlan.isSome then s.refuse .planFixed
    else if ¬ plan.anyLane then s.refuse .emptyPlan
    else if ¬ plan.joined ∧ ¬ plan.fits plan.halfLength then s.refuse .badFormat
    else (s.setQuad q (.planned plan)).accept
      [byteOf (plan.width 0), byteOf (plan.width 1), byteOf (plan.width 2), byteOf (plan.width 3)]

/-- QUAD_PLAN (R6). -/
def execQuadPlan (s : State) : Host.Outcome State Fault Refusal :=
  .next (s.takeRequest .quadPlan quadPlan)

/-- Each output channel of a quad enters the route table as FREE (R9, R55). -/
def State.freeOutputs (s : State) (q : QuadId) : State :=
  { s with mix := { s.mix with
      routes := fillWhere s.mix.routes (fun c => s.isOutput c && decide (channelQuad c = q)) .free } }

/-- A quad becomes STARTED: its channels exist and its output channels are FREE (R9). -/
def State.startQuad (s : State) (q : QuadId) (plan : Plan) : State :=
  (s.setQuad q (.started plan)).freeOutputs q

/-- The start of an unjoined quad's own group: counter 0, ACQUIRING, the mark kept (R9). -/
def State.startGroup (s : State) (g : GroupId) : State :=
  (s.setGroup g { s.group g with counter := 0 }).acquire g

/-- The start of a joined quad B: capture waits for a left half-frame of group A, and the OUT lanes for a frame start unless group A is outside LOCKED (R10). -/
def State.startJoined (s : State) : State :=
  { s with lane := { s.lane with
      joinedCapture := false, joinedDriven := decide ((s.group .A).state ≠ .locked) } }

/-- QUAD START (R8 to R10). -/
def quadStart (payload : List Byte) (s : State) : Answer :=
  match letterOf (byteAt payload 0) with
  | none => s.refuse .badValue
  | some q =>
    if payload.length ≠ 1 then s.refuse .badValue
    else match s.quad q with
      | .started _ => s.refuse .planFixed
      | .unplanned => s.refuse .notReady
      | .planned plan =>
        if plan.joined then
          match (s.quad .A).startedPlan with
          | none => s.refuse .notReady
          | some planA =>
            if plan.fits planA.halfLength then ((s.startQuad q plan).startJoined).accept []
            else s.refuse .badFormat
        else ((s.startQuad q plan).startGroup q).accept []

/-- QUAD_START (R8). -/
def execQuadStart (s : State) : Host.Outcome State Fault Refusal :=
  .next (s.takeRequest .quadStart quadStart)

/-! ### Retiring a lane -/

/-- The channels a lane of a quad carries. -/
def laneChannel (q : QuadId) (p : LanePos) (l : LanePlan) (c : Channel) : Bool :=
  decide (channelQuad c = q) && l.carries p (channelSlot c)

/-- The plan without a lane (R12). -/
def Plan.without (plan : Plan) (p : LanePos) : Plan := { plan with lanes := plan.lanes.set p none }

/-- An IN lane's channels leave: their capture registers are emptied, their input slots go with them, and their crosspoint entries are removed in ascending order of bus and then channel (R13, R27, R59). -/
def State.retireInputs (s : State) (chosen : Channel → Bool) : State :=
  let t := s.emptyCapture chosen
  let u := { t with word := { t.word with inSlot := fillWhere t.word.inSlot chosen 0 } }
  (u.mix.xp.filter fun e => chosen e.channel).foldl (fun v e => v.removeEntry e none) u

/-- An OUT lane's channels leave: their slots are discarded and their route entries become ABSENT (R13, R30, R60). -/
def State.retireOutputs (s : State) (chosen : Channel → Bool) : State :=
  let t := (s.clearOutputs chosen).silence chosen
  (allChannels.filter chosen).foldl (fun v c => v.setRoute c .absent) t

/-- LANE RETIRE (R12, R13). -/
def laneRetire (payload : List Byte) (s : State) : Answer :=
  match letterOf (byteAt payload 0), index4Of (byteAt payload 1) with
  | some q, some p =>
    if payload.length ≠ 2 then s.refuse .badValue
    else match (s.quad q).startedPlan with
      | none => s.refuse .notReady
      | some plan =>
        match plan.lanes[p] with
        | none => s.refuse .noChannel
        | some l =>
          let t := s.setQuad q (.started (plan.without p))
          match l.direction with
          | .input => (t.retireInputs (laneChannel q p l)).accept []
          | .output => (t.retireOutputs (laneChannel q p l)).accept []
  | _, _ => s.refuse .badValue

/-- LANE_RETIRE (R12). -/
def execLaneRetire (s : State) : Host.Outcome State Fault Refusal :=
  .next (s.takeRequest .laneRetire laneRetire)

/-! ### Standby -/

/-- The target of a GROUP POWER payload: `true` for STANDBY; none when the payload is not well formed (R20, R178). -/
def powerTarget (payload : List Byte) : Option (GroupId × Bool) :=
  match letterOf (byteAt payload 0), bitOf (byteAt payload 1) with
  | some g, some standby => if payload.length = 2 then some (g, standby) else none
  | _, _ => none

/-- GROUP POWER (R20). -/
def groupPower (payload : List Byte) (s : State) : Answer :=
  match powerTarget payload with
  | none => s.refuse .badValue
  | some (g, standby) =>
    match (s.group g).state with
    | .off => s.refuse .notReady
    | .standby => (if standby then s else s.acquire g).accept []
    | _ => (if standby then s.haltGroup g .standby else s).accept []

/-- The frame is a GROUP POWER that does not name the other target; one that is not well formed names none, and either command takes it (log 16). -/
def ReceivedFrame.isPower (standby : Bool) (f : ReceivedFrame) : Bool :=
  f.isKind .groupPower && (match powerTarget f.payload with
    | some (_, target) => decide (target = standby)
    | none => true)

/-- GROUP_POWER_STANDBY (R20). -/
def execGroupPowerStandby (s : State) : Host.Outcome State Fault Refusal :=
  .next (s.takeFrame (ReceivedFrame.isPower true) fun f t => groupPower f.payload t)

/-- GROUP_POWER_ACTIVE (R20). -/
def execGroupPowerActive (s : State) : Host.Outcome State Fault Refusal :=
  .next (s.takeFrame (ReceivedFrame.isPower false) fun f t => groupPower f.payload t)

/-! ### The mark and GROUP READ -/

/-- GROUP MARK (R22). -/
def groupMark (payload : List Byte) (s : State) : Answer :=
  match letterOf (byteAt payload 0), markModeOf (byteAt payload 5) with
  | some g, some mode =>
    if payload.length ≠ 6 then s.refuse .badValue
    else (s.setGroup g { s.group g with mark := field32 payload 1, markMode := mode, markOut := false }).accept []
  | _, _ => s.refuse .badValue

/-- GROUP_MARK (R22). -/
def execGroupMark (s : State) : Host.Outcome State Fault Refusal :=
  .next (s.takeRequest .groupMark groupMark)

/-- GROUP READ (R24). -/
def groupRead (payload : List Byte) (s : State) : Answer :=
  match letterOf (byteAt payload 0) with
  | some g =>
    if payload.length ≠ 1 then s.refuse .badValue
    else s.accept ([(s.group g).state.code] ++ bytes32 (s.group g).counter ++ bytes32 (s.group g).mark
      ++ [(s.group g).markMode.code])
  | none => s.refuse .badValue

/-- GROUP_READ (R24). -/
def execGroupRead (s : State) : Host.Outcome State Fault Refusal :=
  .next (s.takeRequest .groupRead groupRead)

/-! ### Word-select edges and the loss timer -/

/-- The side a level of word select marks (R1). -/
def Polarity.side (p : Polarity) (high : Bool) : Side :=
  match p, high with
  | .leftHigh, true => .left
  | .leftHigh, false => .right
  | .leftLow, true => .right
  | .leftLow, false => .left

/-- The end of a half-frame in ACQUIRING (R15). -/
def State.judgeAcquiring (s : State) (g : GroupId) (side : Side) (good : Bool) : State :=
  let G := s.group g
  if ¬ good then s.setGroup g { G with count := 0, goodLeft := false }
  else match side with
    | .left => s.setGroup g { G with goodLeft := true }
    | .right =>
      if ¬ G.goodLeft then s
      else if G.count + 1 < 2 then s.setGroup g { G with count := G.count + 1, goodLeft := false }
      else (s.setGroup g { G with goodLeft := false }).enterLocked g

/-- A frame start that a first-bit delay of 1 places at the edge itself and that is taken first there: it belongs to the number the arrival gives (R31; log 7). -/
def State.startAtEdge (s : State) (g : GroupId) (delayed : Bool) : State :=
  if delayed ∧ (s.group g).startMade then s.frameStartLocked g ((s.group g).counter + 1) else s

/-- A frame arrival (R16): the counter advances, the mark is compared, and the frame record goes to the mix engine.
With a first-bit delay of 1 the frame start of the same edge comes first where FRAME_START came before the edge, and is otherwise still to come (R31; log 7).
The two are then one step: no other push and no FAULT READ falls between their faults, which is the model's choice (R164; log 30). -/
def State.frameArrival (s : State) (g : GroupId) (delayed : Bool) : State :=
  let t := s.startAtEdge g delayed
  let G := t.group g
  let u := t.setGroup g { G with counter := G.counter + 1, goodLeft := false, startMade := false,
                                 startDue := delayed && !G.startMade }
  (u.compareMark g).passArrival g (G.counter + 1)

/-- The end of a good half-frame in LOCKED (R16). -/
def State.judgeLocked (s : State) (g : GroupId) (side : Side) (delayed : Bool) : State :=
  match side with
  | .left => s.setGroup g { s.group g with goodLeft := true, startDue := false }
  | .right => if (s.group g).goodLeft then s.frameArrival g delayed else s

/-- A slip (R17): SLIP is pushed with the counter's value and the group enters LOST. -/
def State.slip (s : State) (g : GroupId) : State :=
  (s.pushFault (FaultRecord.of .slip g (s.group g).counter)).haltGroup g .lost

/-- The edge can occur now: word select changes side, and the half-frame is no shorter than what has already been counted in it (log 6). -/
def edgePossible (h : HalfFrame) (side : Side) (length : Nat) : Bool :=
  decide (side ≠ h.side ∧ h.length ≤ length)

/-- WORD_SELECT_EDGE (R4, R15 to R17, R19). In OFF and STANDBY the group ignores its pins (R14, R20).
Group A is framed by quad A's format and group B by quad B's; a joined quad B leaves group B OFF (R5). -/
def execWordSelectEdge (g : GroupId) (high : Bool) (length : Nat) (s : State) : Host.Outcome State Fault Refusal :=
  .next (
    match (s.quad g).startedPlan with
    | none => s
    | some plan =>
      let G := s.group g
      let side := plan.polarity.side high
      match G.state with
      | .off => s
      | .standby => s
      | .lost => (s.acquire g).beginHalf g side
      | .acquiring =>
        match G.half with
        | none => s.beginHalf g side
        | some h =>
          if edgePossible h side length then
            (s.judgeAcquiring g h.side (decide (length = plan.halfLength))).beginHalf g side
          else s
      | .locked =>
        match G.half with
        | none => s.beginHalf g side
        | some h =>
          if edgePossible h side length then
            if length = plan.halfLength then (s.judgeLocked g h.side plan.firstBitDelay).beginHalf g side
            else s.slip g
          else s)

/-- LOSS_TIMER_EXPIRY (R18): in LOCKED, CLOCK_LOSS is pushed and the group enters LOST; in ACQUIRING the acquisition starts again. -/
def execLossTimerExpiry (g : GroupId) (s : State) : Host.Outcome State Fault Refusal :=
  .next (
    let G := s.group g
    if G.lossTimer then
      match G.state with
      | .locked => (s.pushFault (FaultRecord.of .clockLoss g G.counter)).haltGroup g .lost
      | .acquiring => s.setGroup g { G with count := 0, half := none, goodLeft := false }
      | _ => s
    else s)

end Sys2Proof.Machine
end

