-- ==== Sys2Proof/Machine/Link.lean ====
section
/-! DEFINITION. The control link's events (Chapter 8): ERROR_REPLY, TRANSFER_BEGIN, TWO_WIRE_WRITE_ADDRESS, TRANSFER_END, OUTGOING_FRAME_COMPLETE. -/

namespace Sys2Proof.Machine

/-! ### Error replies (R148) -/

/-- The frame is not a request. -/
def ReceivedFrame.isError (f : ReceivedFrame) : Bool :=
  match f.outcome with
  | .request _ => false
  | _ => true

/-- The error reply of a frame that is not a request (R148). -/
def errorAnswer (f : ReceivedFrame) (s : State) : Answer :=
  match f.outcome with
  | .tooLong => s.refuse .tooLong
  | .short => s.refuse .short
  | .badCheck => s.refuse .badCheck
  | _ => { state := s, status := .unknown, payload := [f.kind] }

/-- ERROR_REPLY (R148): the executor takes a TOO_LONG, SHORT, BAD_CHECK or UNKNOWN frame and queues the matching error reply. -/
def execErrorReply (s : State) : Host.Outcome State Fault Refusal :=
  .next (s.takeFrame ReceivedFrame.isError errorAnswer)

/-! ### Sending (R152, R153) -/

/-- The frame of a collection, built from what it holds now (R153). -/
def State.buildFrame (s : State) (source : Source) : Option Outgoing :=
  match source with
  | .reply => s.link.replies.head?.map fun r =>
      { source := .reply, bytes := r.bytes, complete := false, changed := false, removed := false }
  | .notice cls => (s.link.notice cls).map fun n =>
      { source := .notice cls, bytes := s.noticeBytes cls n, complete := false, changed := false, removed := false }

/-- The outgoing arbiter: the oldest reply, otherwise the pending notice of the highest class, otherwise nothing (R152). -/
def State.arbitrate (s : State) : Option Source :=
  if s.link.replies.isEmpty then
    (allClasses.find? fun c => (s.link.notice c).isSome).map .notice
  else some .reply

/-- What a transfer that begins now sends: the held frame again, or the arbiter's choice (R152). -/
def State.chooseOutgoing (s : State) : Option Outgoing :=
  match s.link.held with
  | some source => s.buildFrame source
  | none => s.arbitrate.bind s.buildFrame

/-- A transfer begins. -/
def State.beginTransfer (s : State) (form : TransferForm) (outgoing : Option Outgoing) : State :=
  { s with link := { s.link with transfer := some { form := form, outgoing := outgoing } } }

/-- The acknowledge given to a two-wire address (R144). -/
def State.acknowledge (s : State) (level : Bool) : State :=
  { s with link := { s.link with addressAck := level } }

/-- The link listens: the part is not in hardware reset (R156) and no transfer is in progress. -/
def State.linkIdle (s : State) : Bool := !s.resetHeld && s.link.transfer.isNone

/-- TRANSFER_BEGIN (R152): the falling edge of SS in SPI mode, or a read address in two-wire mode. The part answers its own address only (R144), and in two-wire mode SS is ignored (R143). -/
def execTransferBegin (start : TransferStart) (s : State) : Host.Outcome State Fault Refusal :=
  .next (
    if s.linkIdle then
      match start with
      | .ssFall => if s.twoWire then s else s.beginTransfer .spi s.chooseOutgoing
      | .readAddress address =>
        if s.twoWire then
          if address = s.linkAddress then (s.acknowledge true).beginTransfer .twoWireRead s.chooseOutgoing
          else s.acknowledge false
        else s
    else s)

/-- TWO_WIRE_WRITE_ADDRESS (R144): the part's own address with the write direction is acknowledged only if the request queue holds fewer than 4 frames. -/
def execTwoWireWriteAddress (address : BitVec 7) (s : State) : Host.Outcome State Fault Refusal :=
  .next (
    if s.linkIdle ∧ s.twoWire then
      if address = s.linkAddress ∧ s.ready then (s.acknowledge true).beginTransfer .twoWireWrite none
      else s.acknowledge false
    else s)

/-- The outgoing frame leaves its collection when its check byte has been sent (R153). -/
def State.retireFrame (s : State) (o : Outgoing) : State :=
  match o.source with
  | .reply => { s with link := { s.link with replies := s.link.replies.tail } }
  | .notice cls => if o.changed then s else { s with link := s.link.dropNotice cls }

/-- OUTGOING_FRAME_COMPLETE (R153): the held frame is cleared, and the frame leaves its collection. -/
def execOutgoingFrameComplete (s : State) : Host.Outcome State Fault Refusal :=
  .next (
    match s.link.transfer with
    | none => s
    | some t =>
      match t.outgoing with
      | none => s
      | some o =>
        if o.complete then s
        else
          let u := s.retireFrame o
          { u with link := { u.link with
              held := none
              transfer := some { t with outgoing := some { o with complete := true } } } })

/-! ### Receiving (R145, R149, R151) -/

/-- What R145 makes of the bytes of a transfer that carries a request. -/
def judge (bytes : List Byte) : Option ReceivedFrame :=
  let kind := byteAt bytes 0
  let tag := byteAt bytes 1
  let len := (byteAt bytes 2).toNat
  if bytes.length < 3 then none
  else if Config.maxPayload < len then some { outcome := .tooLong, kind := kind, tag := tag, payload := [] }
  else if bytes.length < len + 4 then some { outcome := .short, kind := kind, tag := tag, payload := [] }
  else if check (bytes.take (len + 3)) ≠ byteAt bytes (len + 3) then
    some { outcome := .badCheck, kind := kind, tag := tag, payload := [] }
  else match kindOf kind with
    | none => some { outcome := .unknown, kind := kind, tag := tag, payload := [] }
    | some k => some { outcome := .request k, kind := kind, tag := tag, payload := (bytes.drop 3).take len }

/-- A received frame enters the request queue; in SPI mode a frame that finds 4 frames there is discarded and the overrun flag is set (R149, R151). -/
def State.enterRequest (s : State) (form : TransferForm) (f : ReceivedFrame) : State :=
  if s.ready then { s with link := { s.link with requests := s.link.requests ++ [f] } }
  else if form = .spi then { s with link := { s.link with overrun := true } }
  else s

/-- The received bytes of a transfer are judged: an SPI interval whose first byte is 00h and a read transfer carry no request (R143, R144, R145). -/
def State.receive (s : State) (form : TransferForm) (bytes : List Byte) : State :=
  if form = .twoWireRead ∨ (form = .spi ∧ bytes.head? = some 0) then s
  else match judge bytes with
    | none => s
    | some f => s.enterRequest form f

/-- The held frame after a transfer: a frame cut short stays held, a frame of which no byte was sent is not newly held,
and a notice that left the notice set is not held (R152, R153; log 8).
Whether the frame is complete is what OUTGOING_FRAME_COMPLETE has said, whatever `sent` counts: without it a frame whose bytes all count as sent is held as cut short, and after it a smaller count changes nothing (log 25). -/
def heldAfter (held : Option Source) (outgoing : Option Outgoing) (sent : Nat) : Option Source :=
  match outgoing with
  | none => held
  | some o => if o.complete then held else if o.removed then none else if 1 ≤ sent then some o.source else held

/-- TRANSFER_END (R145): the transfer ends, its outgoing frame is cut short unless it is complete, and the received bytes are judged. -/
def execTransferEnd (received : List Byte) (sent : Nat) (s : State) : Host.Outcome State Fault Refusal :=
  .next (
    match s.link.transfer with
    | none => s
    | some t =>
      State.receive { s with link := { s.link with transfer := none, held := heldAfter s.link.held t.outgoing sent } }
        t.form received)

end Sys2Proof.Machine
end

