-- ==== Sys2Proof/Machine/Memory.lean ====
section
/-! DEFINITION. The memory port (Chapter 7): the arbiter, the pass's placements, offers and end, the line requests, and DRAM_READ_COMPLETE, DRAM_WRITE_COMPLETE, REFRESH_DUE, REFRESH_COMPLETE, CLEAR_WRITE. -/

namespace Sys2Proof.Machine

/-! ### The arbiter (R136, R137, R140) -/

/-- The DRAM begins a read: it leaves the read queue, and its row is open (R135, R126). -/
def MemoryPort.beginRead (m : MemoryPort) (r : ReadRequest) : MemoryPort :=
  { m with
    readQ := m.readQ.erase r
    access := some (.read r.address (some (r.group, r.bus)) (m.isFast r.address))
    openRow := some (rowOf r.address) }

/-- The DRAM begins the oldest write. -/
def MemoryPort.beginWrite (m : MemoryPort) (w : WriteRequest) : MemoryPort :=
  { m with
    writeQ := m.writeQ.tail
    access := some (.write w.address w.value (m.isFast w.address))
    openRow := some (rowOf w.address) }

/-- The arbiter's choice among the queues (R136). With a full write queue, a queued read of the oldest write's address goes first:
it entered the port before that write, or it would have been forwarded (R135, R137; log 14). -/
def MemoryPort.chooseQueued (m : MemoryPort) : MemoryPort :=
  match m.writeQ, m.readQ with
  | w :: ws, rs =>
    if Config.maxWrites ≤ ws.length + 1 then
      match rs.find? fun r => decide (r.address = w.address) with
      | some r => m.beginRead r
      | none => m.beginWrite w
    else match rs with
      | r :: _ => m.beginRead r
      | [] => m.beginWrite w
  | [], r :: _ => m.beginRead r
  | [], [] => m

/-- When the DRAM is free, a due refresh is made; otherwise the arbiter chooses (R127, R136). -/
def MemoryPort.arbitrate (m : MemoryPort) : MemoryPort :=
  match m.access with
  | some _ => m
  | none =>
    if m.refreshDue then { m with access := some .refresh, refreshDue := false }
    else m.chooseQueued

/-- The arbiter looks at the DRAM. -/
def State.arbitrateMem (s : State) : State := { s with mem := s.mem.arbitrate }

/-! ### Placement, delayed values and the end of a pass (R64, R76, R138) -/

/-- The pass context of a group is changed, if it is IN FLIGHT. -/
def State.modifyPass (s : State) (g : GroupId) (f : Pass → Pass) : State := s.setPass g ((s.pass g).map f)

/-- The exchange progress of a bus of a pass is set (R62). -/
def Pass.setProgress (b : BusId) (x : Progress) (p : Pass) : Pass :=
  { p with buses := p.buses.map fun i => if i.bus = b then { i with progress := x } else i }

/-- A bus is placed: its value is written, fresh, into the output slot of every channel of the pass's group that it owns (R76, R30, R77; log 24).
A pass whose left LOCKED flag is set writes no slot while its group is LOCKED (R80). -/
def State.place (s : State) (g : GroupId) (b : BusId) (v : Sample) : State :=
  let barred := (match s.pass g with | some p => p.leftLocked | none => true) && decide ((s.group g).state = .locked)
  if barred then s
  else { s with word := { s.word with
    outSlot := Vector.ofFn fun c =>
      if s.route c = .owned b ∧ s.groupOfChannel c = g then { value := v, fresh := true } else s.word.outSlot[c] } }

/-- A bus's delayed value becomes known: it is recorded, its read is outstanding no longer, and the bus is placed (R62, R76, R138). -/
def State.valueKnown (s : State) (g : GroupId) (b : BusId) (v : Sample) : State :=
  (s.modifyPass g fun p =>
    { p.setProgress b (.known v) with outstanding := p.outstanding.filter fun r => decide (r.2 ≠ b) }).place g b v

/-- The conditions of R64 hold: every bus has been dealt with, no offer waits, and no read is outstanding. -/
def Pass.done (p : Pass) : Bool :=
  decide (p.stage = .exchange) && p.wait.isNone && p.outstanding.isEmpty &&
    p.buses.all fun i => decide (i.progress ≠ .waiting)

/-- The pass ends: its context is IDLE, and the deferred flags of its group's cues are cleared (R64, R84). -/
def State.endPass (s : State) (g : GroupId) : State :=
  { s.setPass g none with cues := s.cues.map fun c => if c.group = g then { c with deferred := false } else c }

/-- The pass ends if it is done (R64). -/
def State.finishPass (s : State) (g : GroupId) : State :=
  match s.pass g with
  | some p => if p.done then s.endPass g else s
  | none => s

/-! ### Offers (R73, R75, R135) -/

/-- An offer of a group may take a free place: no other group's offer has waited for one longer (R135; log 13). -/
def mayTake (waiters : List GroupId) (g : GroupId) : Bool :=
  match waiters with
  | [] => true
  | h :: _ => decide (h = g)

/-- The group joins those that wait. -/
def joinWait (waiters : List GroupId) (g : GroupId) : List GroupId :=
  if g ∈ waiters then waiters else waiters ++ [g]

/-- The group no longer waits. -/
def leaveWait (waiters : List GroupId) (g : GroupId) : List GroupId := waiters.filter fun h => decide (h ≠ g)

/-- The newest write in the write queue to an address (R135). -/
def newestWrite (q : List WriteRequest) (address : Nat) : Option WriteRequest :=
  q.reverse.find? fun w => decide (w.address = address)

/-- A write is admitted into the write queue, and the arbiter looks at the DRAM (R135, R136). -/
def State.admitWrite (s : State) (w : WriteRequest) : State :=
  { s with mem := { s.mem with writeQ := s.mem.writeQ ++ [w] } }.arbitrateMem

/-- A read enters the read queue, and the arbiter looks at the DRAM (R135, R136). -/
def State.admitRead (s : State) (r : ReadRequest) : State :=
  { s with mem := { s.mem with readQ := s.mem.readQ ++ [r] } }.arbitrateMem

/-- The write index of a bus's line goes up by one, modulo its length, when the write is offered (R73). -/
def State.advanceIndex (s : State) (b : BusId) : State :=
  match s.line b with
  | some l => s.setLine b (some { l with writeIndex := (l.writeIndex + 1) % l.length })
  | none => s

/-- The pass offers the write of its waiting pair: it is admitted and the write index advances, or the pass waits (R73, R75, R135). -/
def State.offerWrite (s : State) (g : GroupId) : State :=
  match s.pass g with
  | none => s
  | some p =>
    match p.wait with
    | none => s
    | some w =>
      if s.mem.writeQ.length < Config.maxWrites ∧ mayTake s.mem.writeWait g then
        let t := s.modifyPass g fun p => { p with wait := none }
        let u := { t with mem := { t.mem with writeWait := leaveWait t.mem.writeWait g } }
        (u.advanceIndex w.bus).admitWrite { address := w.write, value := dramWordOf w.value, source := .pass g w.bus }
      else { s with mem := { s.mem with writeWait := joinWait s.mem.writeWait g } }

/-- The read of the waiting pair has been accepted: it is no longer to be offered. -/
def State.readAccepted (s : State) (g : GroupId) : State :=
  let t := s.modifyPass g fun p => { p with wait := p.wait.map fun w => { w with read := none } }
  { t with mem := { t.mem with readWait := leaveWait t.mem.readWait g } }

/-- The pass offers the read of its waiting pair: it is forwarded from the newest write of its address, or enters the read queue, or the pass waits (R135); once it is accepted the pass offers its write (R75). -/
def State.offerRead (s : State) (g : GroupId) : State :=
  match s.pass g with
  | none => s
  | some p =>
    match p.wait with
    | none => s
    | some w =>
      match w.read with
      | none => s
      | some a =>
        match newestWrite s.mem.writeQ a with
        | some x => ((s.readAccepted g).valueKnown g w.bus (sampleOfDram x.value)).offerWrite g
        | none =>
          if s.mem.readQ.length < Config.maxReads ∧ mayTake s.mem.readWait g then
            ((s.readAccepted g).admitRead { address := a, group := g, bus := w.bus }).offerWrite g
          else { s with mem := { s.mem with readWait := joinWait s.mem.readWait g } }

/-! ### Withdrawal (R75, R139) -/

/-- A group's pass withdraws what it has not yet offered for a bus whose line has left ACTIVE: the write, and a read that still waits, whose bus then never learns a value (R62, R75, R139; log 12). The pass goes on to its next bus. -/
def State.withdrawOf (s : State) (g : GroupId) (b : BusId) : State :=
  match s.pass g with
  | none => s
  | some p =>
    match p.wait with
    | none => s
    | some w =>
      if w.bus ≠ b then s
      else
        let q : Pass := match w.read with
          | some _ => { p.setProgress b .withdrawn with
                          wait := none, outstanding := p.outstanding.filter fun r => decide (r.2 ≠ b) }
          | none => { p with wait := none }
        let t := s.setPass g (some q)
        { t with mem := { t.mem with
            readWait := leaveWait t.mem.readWait g, writeWait := leaveWait t.mem.writeWait g } }.finishPass g

/-- Both groups' passes withdraw what they have not yet offered for a bus. -/
def State.withdraw (s : State) (b : BusId) : State := (s.withdrawOf .A b).withdrawOf .B b

/-! ### Line requests (R129 to R132) -/

/-- The line lengths (R128). -/
def lineLengths : List Nat := [256, 512, 1024, 2048, 4096, 8192, 16384, 32768, 65536]

/-- Two regions share a word. -/
def overlaps (base length : Nat) (l : Line) : Bool :=
  decide (base < l.base + l.length ∧ l.base < base + length)

/-- LINE DEFINE (R129). -/
def lineDefine (payload : List Byte) (s : State) : Answer :=
  match index16Of (byteAt payload 0) with
  | none => s.refuse .badValue
  | some b =>
    let base := (field24 payload 1).toNat
    let length := (field24 payload 4).toNat
    if payload.length ≠ 7 then s.refuse .badValue
    else if (s.line b).isSome then s.refuse .inUse
    else if length ∉ lineLengths ∨ base % length ≠ 0 then s.refuse .badValue
    else if s.dramWords = 0 ∨ s.dramWords < base + length then s.refuse .outOfMemory
    else if allBuses.any fun c => (match s.line c with | some l => overlaps base length l | none => false) then
      s.refuse .overlap
    else
      let t := s.setLine b (some { base := base, length := length, writeIndex := 0, delay := 0, state := .clearing 0 })
      ({ t with mem := { t.mem with clearing := t.mem.clearing ++ [b] } } : State).accept []

/-- LINE_DEFINE (R129). -/
def execLineDefine (s : State) : Host.Outcome State Fault Refusal :=
  .next (s.takeRequest .lineDefine lineDefine)

/-- LINE CLEAR (R130): an ACTIVE line joins the end of the clearing order; a CLEARING one keeps its place. -/
def lineClear (payload : List Byte) (s : State) : Answer :=
  match index16Of (byteAt payload 0) with
  | none => s.refuse .badValue
  | some b =>
    if payload.length ≠ 1 then s.refuse .badValue
    else match s.line b with
      | none => s.refuse .noLine
      | some l =>
        let t := s.setLine b (some { l with writeIndex := 0, state := .clearing 0 })
        let u := match l.state with
          | .active => { t with mem := { t.mem with clearing := t.mem.clearing ++ [b] } }
          | .clearing _ => t
        (u.withdraw b).accept []

/-- LINE_CLEAR (R130). -/
def execLineClear (s : State) : Host.Outcome State Fault Refusal :=
  .next (s.takeRequest .lineClear lineClear)

/-- LINE RELEASE (R131). -/
def lineRelease (payload : List Byte) (s : State) : Answer :=
  match index16Of (byteAt payload 0) with
  | none => s.refuse .badValue
  | some b =>
    if payload.length ≠ 1 then s.refuse .badValue
    else if (s.line b).isNone then s.refuse .noLine
    else
      let t := s.setLine b none
      (({ t with mem := { t.mem with clearing := t.mem.clearing.filter fun c => decide (c ≠ b) } } : State).withdraw b).accept []

/-- LINE_RELEASE (R131). -/
def execLineRelease (s : State) : Host.Outcome State Fault Refusal :=
  .next (s.takeRequest .lineRelease lineRelease)

/-- LINE READ (R132). -/
def lineRead (payload : List Byte) (s : State) : Answer :=
  match index16Of (byteAt payload 0) with
  | none => s.refuse .badValue
  | some b =>
    if payload.length ≠ 1 then s.refuse .badValue
    else match s.line b with
      | none => s.refuse .noLine
      | some l => s.accept l.bytes

/-- LINE_READ (R132). -/
def execLineRead (s : State) : Host.Outcome State Fault Refusal :=
  .next (s.takeRequest .lineRead lineRead)

/-! ### DRAM accesses (R138, R141) -/

/-- The DRAM is free and chooses again. -/
def State.freeDram (s : State) : State :=
  { s with mem := { s.mem with access := none } }.arbitrateMem

/-- DRAM_READ_COMPLETE (R138): the value is handed to the pass that offered the read, the bus is placed, the pass may end, and the arbiter chooses the next access. A read whose pass a soft reset ended has no effect on any record (R141). -/
def execDramReadComplete (s : State) : Host.Outcome State Fault Refusal :=
  match s.mem.access with
  | some (.read a destination _) =>
    if s.dramWords ≤ a then .fault (.noSuchWord a)
    else match destination with
      | some (g, b) => .next (((s.valueKnown g b (sampleOfDram (s.mem.dram.read a))).finishPass g).freeDram)
      | none => .next s.freeDram
  | _ => .next s

/-- DRAM_WRITE_COMPLETE (R138): the word is stored, and the arbiter chooses the next access. -/
def execDramWriteComplete (s : State) : Host.Outcome State Fault Refusal :=
  match s.mem.access with
  | some (.write a v _) =>
    if s.dramWords ≤ a then .fault (.noSuchWord a)
    else .next ({ s with mem := { s.mem with dram := s.mem.dram.write a v } }.freeDram)
  | _ => .next s

/-- REFRESH_DUE (R127): a refresh falls due, and is made as soon as the DRAM is free. There is none without a DRAM or while hardware reset lasts. -/
def execRefreshDue (s : State) : Host.Outcome State Fault Refusal :=
  .next (
    if s.resetHeld ∨ s.dramWords = 0 then s
    else { s with mem := { s.mem with refreshDue := true } }.arbitrateMem)

/-- REFRESH_COMPLETE (R127): no row is open, and the arbiter chooses again. -/
def execRefreshComplete (s : State) : Host.Outcome State Fault Refusal :=
  .next (
    match s.mem.access with
    | some .refresh => { s with mem := { s.mem with openRow := none } }.freeDram
    | _ => s)

/-! ### The clear engine (R133, R134) -/

/-- The line after a clear write at position p has been admitted, and whether the clear ended (R133). -/
def Line.cleared (l : Line) (p : Nat) : Line :=
  if p + 1 < l.length then { l with state := .clearing (p + 1) } else { l with writeIndex := 0, state := .active }

/-- The clear engine admits a zero write for the head line at position p (R133). -/
def State.clearStep (s : State) (b : BusId) (l : Line) (p : Nat) : State :=
  let t := (s.setLine b (some (l.cleared p))).admitWrite { address := l.base + p, value := 0, source := .clearEngine }
  if p + 1 < l.length then t
  else { t with mem := { t.mem with clearing := t.mem.clearing.filter fun c => decide (c ≠ b) } }.occur .line (.line b)

/-- CLEAR_WRITE (R133, R134): with at least 2 free places in the write queue, the clear engine admits a zero write for the head line and advances its clear position; the last one makes the line ACTIVE and raises LINE. -/
def execClearWrite (s : State) : Host.Outcome State Fault Refusal :=
  .next (
    match s.mem.clearing with
    | [] => s
    | b :: _ =>
      match s.line b with
      | none => s
      | some l =>
        match l.state with
        | .active => s
        | .clearing p => if s.mem.writeQ.length + 2 ≤ Config.maxWrites then s.clearStep b l p else s)

end Sys2Proof.Machine
end

