-- ==== Sys2Proof/Machine/Mix.lean ====
section
/-! DEFINITION. The mix engine's requests (Chapter 3): BUS_SET, BUS_READ, CLIP_CLEAR, XP_READ, ROUTE_READ, ROUTE_CLEAR. -/

namespace Sys2Proof.Machine

/-- BUS SET (R40). -/
def busSet (payload : List Byte) (s : State) : Answer :=
  match index16Of (byteAt payload 0), busGroupOf (byteAt payload 1), roundingOf (byteAt payload 2), overflowOf (byteAt payload 3) with
  | some b, some group, some rounding, some overflow =>
    let r := s.bus b
    if payload.length ≠ 4 then s.refuse .badValue
    else if group ≠ r.group ∧ ¬ (r.entryCount = 0 ∧ r.ownedCount = 0 ∧ r.holdCount = 0) then s.refuse .inUse
    else (s.modifyBus b fun r => { r with group := group, rounding := rounding, overflow := overflow }).accept []
  | _, _, _, _ => s.refuse .badValue

/-- BUS_SET (R40). -/
def execBusSet (s : State) : Host.Outcome State Fault Refusal :=
  .next (s.takeRequest .busSet busSet)

/-- BUS READ (R44, R178). -/
def busRead (payload : List Byte) (s : State) : Answer :=
  match index16Of (byteAt payload 0) with
  | some b =>
    if payload.length ≠ 1 then s.refuse .badValue
    else s.accept [byteOfBusGroup (s.bus b).group, (s.bus b).rounding.code, (s.bus b).overflow.code,
      byteOfBool (s.bus b).clip, byteOf (s.bus b).entryCount, byteOf (s.bus b).ownedCount,
      byteOf (s.bus b).holdCount, byteOfBool (s.line b).isSome]
  | none => s.refuse .badValue

/-- BUS_READ (R44). -/
def execBusRead (s : State) : Host.Outcome State Fault Refusal :=
  .next (s.takeRequest .busRead busRead)

/-- The mask of the buses whose clip flag is set (R43, R173). -/
def State.clipMask (s : State) : BitVec 16 :=
  BitVec.ofNat 16 ((allBuses.filter fun b => (s.bus b).clip).map fun b => 2 ^ b.val).sum

/-- CLIP CLEAR (R43). -/
def clipClear (payload : List Byte) (s : State) : Answer :=
  if payload.length ≠ 2 then s.refuse .badValue
  else
    let mask := field16 payload 0
    let t := { s with mix := { s.mix with
      buses := Vector.ofFn fun b => if mask.getLsbD b.val then { s.mix.buses[b] with clip := false } else s.mix.buses[b] } }
    t.accept (bytes16 (s.clipMask &&& mask))

/-- CLIP_CLEAR (R43). -/
def execClipClear (s : State) : Host.Outcome State Fault Refusal :=
  .next (s.takeRequest .clipClear clipClear)

/-- The entries of a bus from a channel on, in ascending order of channel (R51). -/
def State.entriesFrom (s : State) (b : BusId) (c : Channel) : List Entry :=
  s.mix.xp.filter fun e => decide (e.bus = b ∧ c ≤ e.channel)

/-- XP READ (R51, R178): at most three entries. -/
def xpRead (payload : List Byte) (s : State) : Answer :=
  match index16Of (byteAt payload 0), index16Of (byteAt payload 1) with
  | some b, some c =>
    if payload.length ≠ 2 then s.refuse .badValue
    else
      let es := s.entriesFrom b c
      s.accept ([byteOf b.val, byteOf (s.bus b).entryCount, byteOf (es.take 3).length, byteOfBool (decide (3 < es.length))]
        ++ (es.take 3).flatMap Entry.bytes)
  | _, _ => s.refuse .badValue

/-- XP_READ (R51). -/
def execXpRead (s : State) : Host.Outcome State Fault Refusal :=
  .next (s.takeRequest .xpRead xpRead)

/-- ROUTE READ (R58, R178). -/
def routeRead (payload : List Byte) (s : State) : Answer :=
  if payload ≠ [] then s.refuse .badValue
  else s.accept (allChannels.flatMap fun c => (s.route c).bytes)

/-- ROUTE_READ (R58). -/
def execRouteRead (s : State) : Host.Outcome State Fault Refusal :=
  .next (s.takeRequest .routeRead routeRead)

/-- ROUTE CLEAR (R56): the reply gives the entry as it stood before. -/
def routeClear (payload : List Byte) (s : State) : Answer :=
  match index16Of (byteAt payload 0) with
  | some c =>
    if payload.length ≠ 1 then s.refuse .badValue
    else if s.route c = .absent then s.refuse .noChannel
    else (s.setRoute c .free).accept (s.route c).bytes
  | none => s.refuse .badValue

/-- ROUTE_CLEAR (R56). -/
def execRouteClear (s : State) : Host.Outcome State Fault Refusal :=
  .next (s.takeRequest .routeClear routeClear)

end Sys2Proof.Machine
end

