-- ==== Sys2Proof/Machine/Notices.lean ====
section
/-! DEFINITION. NOTICE_SET and FAULT_READ (Chapter 9). -/

namespace Sys2Proof.Machine

/-- The classes whose bit goes from set to clear and whose notice is pending: those NOTICE SET removes (R160). -/
def Link.disabled (l : Link) (mask : BitVec 7) : List NoticeClass :=
  allClasses.filter fun c => l.enabled c && !mask.getLsbD c.index.val && (l.notice c).isSome

/-- The mask of some classes (R160). -/
def classMask (cs : List NoticeClass) : Byte := byteOf (cs.map fun c => 2 ^ c.index.val).sum

/-- NOTICE SET (R160): the mask and mode are written, pending notices of disabled classes are removed, and on a return to ONE-LINE the pin unit takes GP3 back with its present level as reference (R161). -/
def noticeSet (payload : List Byte) (s : State) : Answer :=
  match bitOf (byteAt payload 1) with
  | none => s.refuse .badValue
  | some twoLine =>
    if payload.length ≠ 2 ∨ (byteAt payload 0).getLsbD 7 then s.refuse .badValue
    else if twoLine ∧ s.cueWaitsOnPin 3 then s.refuse .inUse
    else
      let mask : BitVec 7 := (byteAt payload 0).setWidth 7
      let gone := s.link.disabled mask
      let l := gone.foldl Link.dropNotice s.link
      let t := { s with link := { l with enable := mask, twoLine := twoLine } }
      let u := if s.link.twoLine ∧ ¬ twoLine then t.resetReference 3 else t
      u.accept [classMask gone]

/-- NOTICE_SET (R160). -/
def execNoticeSet (s : State) : Host.Outcome State Fault Refusal :=
  .next (s.takeRequest .noticeSet noticeSet)

/-- FAULT READ (R165): the top record is removed and returned with the number left; a stack that becomes empty removes a pending FAULT notice (R159). -/
def faultRead (payload : List Byte) (s : State) : Answer :=
  if payload ≠ [] then s.refuse .badValue
  else match s.faults with
    | [] => s.refuse .none
    | top :: rest =>
      let t := { s with faults := rest }
      let u := if rest = [] then { t with link := t.link.dropNotice .fault } else t
      u.accept (top.bytes ++ [byteOf rest.length])

/-- FAULT_READ (R165). -/
def execFaultRead (s : State) : Host.Outcome State Fault Refusal :=
  .next (s.takeRequest .faultRead faultRead)

end Sys2Proof.Machine
end

