-- ==== Sys2Proof/Machine/Part.lean ====
section
/-! DEFINITION. PART_IDENTIFY and the resets: PART_RESET with the soft reset (R155), HARDWARE_RESET (R156) and RESET_RELEASE (R171). -/

namespace Sys2Proof.Machine

/-- PART IDENTIFY (R172, R178). -/
def identify (payload : List Byte) (s : State) : Answer :=
  if payload ≠ [] then s.refuse .badValue
  else s.accept ([Config.partCode, Config.revision, Straps.byte s.straps] ++ num24 s.dramWords ++
    [(s.quad .A).code, (s.quad .B).code,
     byteOfBool (match (s.quad .B).plan with | some p => p.joined | none => false)])

/-- PART_IDENTIFY (R172). -/
def execPartIdentify (s : State) : Host.Outcome State Fault Refusal :=
  .next (s.takeRequest .partIdentify identify)

/-- An access under way at a soft reset completes at the DRAM, but a read's value is discarded (R141). -/
def Access.orphan : Access → Access
  | .read a _ fast => .read a none fast
  | .write a v fast => .write a v fast
  | .refresh => .refresh

/-- The general pins after either reset (R171). -/
def State.resetPins (s : State) : Vector GeneralPin 4 := Vector.ofFn fun k => GeneralPin.reset s.pins[k].board

/-- The link after a soft reset: replies and a held reply are kept, and the transfer in progress is not broken off (R155). -/
def Link.softReset (l : Link) : Link :=
  { Link.reset with
    replies := l.replies
    held := if l.held = some .reply then some .reply else none
    addressAck := l.addressAck
    transfer := l.transfer.map fun t =>
      { t with outgoing := t.outgoing.map fun o => if o.source = .reply then o else { o with removed := true } } }

/-- The memory port after a soft reset: the access under way and a due refresh go on (R127, R141). -/
def MemoryPort.softReset (m : MemoryPort) : MemoryPort :=
  { MemoryPort.reset m.dram with access := m.access.map Access.orphan, refreshDue := m.refreshDue }

/-- The soft reset: every block takes its soft-reset values; the straps, the fault stack, the reply queue and the DRAM's contents are kept (R155, R166, R171). -/
def State.softReset (s : State) : State :=
  { s with
    lane := LaneInterface.reset
    word := WordPath.reset
    mix := MixEngine.reset
    cues := []
    mem := s.mem.softReset
    link := s.link.softReset
    pins := s.resetPins }

/-- PART RESET checks that its payload is empty (R155). -/
def partResetRequest (payload : List Byte) (s : State) : Answer :=
  if payload ≠ [] then s.refuse .badValue else s.accept []

/-- The frame the executor can take is a PART RESET with no payload. -/
def State.resetAccepted (s : State) : Bool :=
  match s.takeable with
  | some f => f.isKind .partReset && f.payload.isEmpty
  | none => false

/-- PART_RESET (R155): the OK reply is queued, and the soft reset then takes place as part of the same execution. -/
def execPartReset (s : State) : Host.Outcome State Fault Refusal :=
  .next (
    let t := s.takeRequest .partReset partResetRequest
    if s.resetAccepted then t.softReset else t)

/-- The DRAM's words after a hardware reset: a word that was being written is left as the memory holds it, a free value (R141; log 10). -/
def MemoryPort.abandon (m : MemoryPort) (free : Nat) : Memory :=
  match m.access with
  | some (.write a _ _) => Memory.write m.dram a (Config.abandonedWord free)
  | _ => m.dram

/-- The running number after a hardware reset: one free value is used when a write was under way. -/
def MemoryPort.abandonCount (m : MemoryPort) (free : Nat) : Nat :=
  match m.access with
  | some (.write _ _ _) => free + 1
  | _ => free

/-- HARDWARE_RESET (R156, R141, R166): transfers and accesses are abandoned, every queue and table is emptied, and the pins are released. The straps are sampled at its end. -/
def execHardwareReset (s : State) : Host.Outcome State Fault Refusal :=
  .next { s with
    resetHeld := true
    lane := LaneInterface.reset
    word := WordPath.reset
    mix := MixEngine.reset
    cues := []
    mem := MemoryPort.reset (s.mem.abandon s.free)
    link := Link.reset
    faults := []
    pins := s.resetPins
    free := s.mem.abandonCount s.free }

/-- RESET_RELEASE (R171, R156): hardware reset ends and the strap values are taken. A release while RESET is not held is no event. -/
def execResetRelease (straps : Straps) (s : State) : Host.Outcome State Fault Refusal :=
  .next (if s.resetHeld then { s with resetHeld := false, straps := straps } else s)

end Sys2Proof.Machine
end

