-- ==== Sys2Proof/Machine/Edits.lean ====
section
/-! DEFINITION. Applying the edits of a cue at its cue start (Chapter 6). -/

namespace Sys2Proof.Machine

/-- The cue start an edit is applied in: the group and frame number of its pass, and the tag and ramp length of its cue (R108). -/
structure CueContext where
  group : GroupId
  frame : FrameNo
  tag : Byte
  rampLength : Nat
deriving DecidableEq, Repr

/-- The fault of an edit, with the fields every fault of a cue start carries (R124). -/
def CueContext.faultRecord (x : CueContext) (code : FaultCode) (channel : Option Channel) (bus : BusId)
    (secondBus : Option BusId) : FaultRecord :=
  { FaultRecord.of code x.group x.frame with channel := channel, bus := some bus, secondBus := secondBus, tag := some x.tag }

/-- The ramp an edit creates, from the entry's present gain (R112). -/
def CueContext.newRamp (x : CueContext) (start target : Gain) : Ramp :=
  { start := start, target := target, length := x.rampLength, elapsed := 0, owner := x.tag }

/-- An edit is void when its operands no longer exist (R109). -/
def State.isVoid (s : State) : Edit → Bool
  | .gain c _ _ => !s.isInput c
  | .drop c _ => !s.isInput c
  | .route c _ => decide (s.route c = .absent)
  | .unroute c _ => decide (s.route c = .absent)
  | .delay b d =>
    match s.line b with
    | none => true
    | some l => decide (l.length ≤ d)

/-- The state with an entry put in the crosspoint table. -/
def State.putEntry (s : State) (e : Entry) : State := s.setXp (xpPut e s.mix.xp)

/-- The cue owns one more ramp when its ramp length is 1 or more (R85, R110, R111, R114). -/
def State.ownRamp (s : State) (x : CueContext) : State :=
  if x.rampLength = 0 then s else s.raiseRamps x.tag

/-- A GAIN edit that is not void (R110, R111, R113). -/
def State.applyGain (s : State) (x : CueContext) (c : Channel) (b : BusId) (target : Gain) : State :=
  match xpFind s.mix.xp c b with
  | none =>
    if s.mix.xp.length < Config.maxEntries then
      let e : Entry := if x.rampLength = 0
        then { channel := c, bus := b, gain := target, state := .steady }
        else { channel := c, bus := b, gain := 0, state := .ramping (x.newRamp 0 target) }
      ((s.putEntry e).raiseEntries b).ownRamp x
    else s.pushFault (x.faultRecord .xpFull (some c) b none)
  | some e =>
    let f : Entry := if x.rampLength = 0
      then { e with gain := target, state := .steady }
      else { e with state := .ramping (x.newRamp e.gain target) }
    ((s.putEntry f).ownRamp x).loseRamp e (some x.tag)

/-- A DROP edit that is not void (R113, R114). -/
def State.applyDrop (s : State) (x : CueContext) (c : Channel) (b : BusId) : State :=
  match xpFind s.mix.xp c b with
  | none => s
  | some e =>
    if x.rampLength = 0 then s.removeEntry e (some x.tag)
    else ((s.putEntry { e with state := .fading (x.newRamp e.gain 0) }).ownRamp x).loseRamp e (some x.tag)

/-- A ROUTE edit that is not void (R115). -/
def State.applyRoute (s : State) (x : CueContext) (ch : Channel) (c : BusId) : State :=
  match s.route ch with
  | .absent => s
  | .free => s.setRoute ch (.owned c)
  | .owned b =>
    if b = c then s
    else (s.setRoute ch (.clashed b c)).pushFault (x.faultRecord .clash (some ch) b (some c))
  | .clashed _ y => (s.setRoute ch (.clashed y c)).pushFault (x.faultRecord .clash (some ch) y (some c))

/-- An UNROUTE edit that is not void (R117). -/
def State.applyUnroute (s : State) (ch : Channel) (c : BusId) : State :=
  if s.route ch = .owned c then s.setRoute ch .free else s

/-- A DELAY edit that is not void (R118). -/
def State.applyDelay (s : State) (b : BusId) (d : Nat) : State :=
  match s.line b with
  | none => s
  | some l => s.setLine b (some { l with delay := d })

/-- An edit is applied: a void edit pushes EDIT_VOID and has no other effect (R108, R109). -/
def State.applyEdit (s : State) (x : CueContext) (e : Edit) : State :=
  if s.isVoid e then s.pushFault (x.faultRecord .editVoid e.channel e.bus none)
  else match e with
    | .gain c b target => s.applyGain x c b target
    | .drop c b => s.applyDrop x c b
    | .route c b => s.applyRoute x c b
    | .unroute c b => s.applyUnroute c b
    | .delay b d => s.applyDelay b d

/-- A due cue is taken as a whole: it becomes APPLYING, its edits leave the pool and are applied in posted order, and it completes at once if it owns no ramp (R65, R98, R120). -/
def State.takeCue (g : GroupId) (n : FrameNo) (s : State) (tag : Byte) : State :=
  match s.findCue tag with
  | none => s
  | some c =>
    let x : CueContext := { group := g, frame := n, tag := tag, rampLength := c.rampLength }
    let t := (s.releaseHolds c.edits).modifyCue tag fun d => { d with state := .applying, edits := [], armed := false }
    let u := c.edits.foldl (fun v e => v.applyEdit x e) t
    match u.findCue tag with
    | some d => if d.outstanding = 0 then u.completeCue tag else u
    | none => u

/-- The due test of a WAITING cue of group g at the pass of frame n (R93, R94). -/
def Cue.isDue (g : GroupId) (n : FrameNo) (c : Cue) : Bool :=
  decide (c.state = .waiting) && decide (c.group = g) &&
  (match c.trigger with
   | .atFrame t => decide ((n - t).toNat < 2147483648)
   | .next => !c.deferred
   | .pin _ => c.armed
   | .after _ => false)

/-- The tags of the due cues, in admission order (R65, R93). -/
def State.dueTags (s : State) (g : GroupId) (n : FrameNo) : List Byte :=
  (s.cues.filter (Cue.isDue g n)).map Cue.tag

end Sys2Proof.Machine
end

