-- ==== Sys2Proof/Machine/Pass.lean ====
section
/-! DEFINITION. The stages of a mix pass (Chapter 4): CUE_START, GAIN_STEP, ACCUMULATE, EXCHANGE_VISIT, PASS_READ_OFFER, PASS_WRITE_OFFER. -/

namespace Sys2Proof.Machine

/-- The pass of a group, when the stage it makes next is the one asked for. -/
def State.passAt (s : State) (g : GroupId) (stage : Stage) : Option Pass :=
  match s.pass g with
  | some p => if p.stage = stage then some p else none
  | none => none

/-! ### Cue start (R65) -/

/-- CUE_START (R65, R108): the due cues, fixed at this moment, are taken in admission order. A pass whose bus set is empty ends here (R64). -/
def execCueStart (g : GroupId) (s : State) : Host.Outcome State Fault Refusal :=
  .next (
    match s.passAt g .cueStart with
    | none => s
    | some p =>
      let t := (s.dueTags g p.frame).foldl (State.takeCue g p.frame) s
      if p.buses.isEmpty then t.endPass g
      else t.modifyPass g fun q => { q with stage := .gainStep })

/-! ### The gain step (R67 to R69) -/

/-- A ramp one step further, with the gain it gives (R67). -/
def Ramp.step (r : Ramp) : Ramp := { r with elapsed := r.elapsed + 1 }

/-- The ramp ends at its next step (R68). -/
def Ramp.ends (r : Ramp) : Bool := decide (r.length ≤ r.elapsed + 1)

/-- An entry after a gain step; none for a FADING entry whose ramp ends (R67, R68). -/
def Entry.step (e : Entry) : Option Entry :=
  match e.state with
  | .steady => some e
  | .ramping r =>
    some (if r.ends then { e with gain := r.target, state := .steady }
          else { e with gain := r.gainAt (r.elapsed + 1), state := .ramping r.step })
  | .fading r =>
    if r.ends then none
    else some { e with gain := r.gainAt (r.elapsed + 1), state := .fading r.step }

/-- The entry's ramp ends at this gain step. -/
def Entry.rampEnds (e : Entry) : Bool :=
  match e.state.ramp with
  | some r => r.ends
  | none => false

/-- The bus is in the pass's bus set. -/
def Pass.hasBus (p : Pass) (b : BusId) : Bool := p.buses.any fun i => decide (i.bus = b)

/-- The pass of a group visits an entry at its gain step: the entry is on a bus of its bus set and its channel is of the group (R67, R77, R41; log 24). -/
def State.visits (s : State) (g : GroupId) (p : Pass) (e : Entry) : Bool :=
  p.hasBus e.bus && decide (s.groupOfChannel e.channel = g)

/-- The table after a gain step that visits some entries (R67). -/
def stepTable (visited : Entry → Bool) (xp : List Entry) : List Entry :=
  xp.filterMap fun e => if visited e then e.step else some e

/-- A ramp that ends at the gain step: a FADING entry leaves its bus's count, and the owner's count goes down, which may complete it (R50, R68). -/
def State.endRamp (s : State) (e : Entry) : State :=
  let t := if e.step.isNone then s.lowerEntries e.bus else s
  t.loseRamp e none

/-- The terms of a bus: the visited entries that remain on it after the step (R69). -/
def termsOf (visited : Entry → Bool) (xp : List Entry) (b : BusId) : List (Channel × Gain) :=
  (xp.filter fun e => visited e && decide (e.bus = b)).map fun e => (e.channel, e.gain)

/-- GAIN_STEP (R67 to R69): every ramp of the bus set advances, ended ramps are dealt with in visiting order, and the term lists are recorded. -/
def execGainStep (g : GroupId) (s : State) : Host.Outcome State Fault Refusal :=
  .next (
    match s.passAt g .gainStep with
    | none => s
    | some p =>
      let ended := s.mix.xp.filter fun e => s.visits g p e && e.rampEnds
      let xp := stepTable (s.visits g p) s.mix.xp
      let t := ended.foldl State.endRamp (s.setXp xp)
      t.modifyPass g fun q =>
        { q with stage := .accumulate, buses := q.buses.map fun i => { i with terms := termsOf (s.visits g p) xp i.bus } })

/-! ### Accumulate (R70 to R72) -/

/-- A bus clips: its flag is set, and a flag that was clear adds the bus to the CLIP notice (R72, R43). -/
def State.clipBus (s : State) (b : BusId) : State :=
  if (s.bus b).clip then s
  else (s.modifyBus b fun r => { r with clip := true }).occur .clip (.clip (BitVec.ofNat 16 (2 ^ b.val)))

/-- The rounded integer of a bus of a pass (R70, R71). -/
def PassBus.rounded (samples : List (Channel × Sample)) (i : PassBus) : Int :=
  roundSum i.rounding (accumulator samples i.terms)

/-- ACCUMULATE (R70 to R72): the result of every bus of the bus set, in ascending order, over the terms its gain step recorded.
A bus that has moved to the other group since that gain step sums those terms too, as R69 and R82 say of entries removed after it; R41 lets its sum be zero (log 24). -/
def execAccumulate (g : GroupId) (s : State) : Host.Outcome State Fault Refusal :=
  .next (
    match s.passAt g .accumulate with
    | none => s
    | some p =>
      let clipped := p.buses.filter fun i => clips (i.rounded p.samples)
      let t := clipped.foldl (fun v i => v.clipBus i.bus) s
      t.modifyPass g fun q =>
        { q with stage := .exchange, buses := q.buses.map fun i => { i with result := limit i.overflow (i.rounded q.samples) } })

/-! ### The delay exchange (R73 to R75) -/

/-- The next bus the exchange reaches: the first not yet reached, when no offer waits (R73, R75). -/
def Pass.nextBus (p : Pass) : Option PassBus :=
  match p.wait with
  | some _ => none
  | none => p.buses.find? fun i => decide (i.progress = .waiting)

/-- The exchange reaches a bus whose line is ACTIVE with a delay of 1 or more: the pair is fixed from the line as it stands, the read counts as outstanding, and it is offered (R62, R73). -/
def State.exchangeLine (s : State) (g : GroupId) (i : PassBus) (l : Line) : State :=
  let a := l.base + (l.writeIndex + l.length - l.delay) % l.length
  let t := s.modifyPass g fun p =>
    { p.setProgress i.bus .readOutstanding with
      outstanding := p.outstanding ++ [(a, i.bus)]
      wait := some { bus := i.bus, read := some a, write := l.base + l.writeIndex, value := i.result } }
  t.offerRead g

/-- The exchange reaches a bus (R73, R74). -/
def State.visit (s : State) (g : GroupId) (i : PassBus) : State :=
  match s.line i.bus with
  | none => s.valueKnown g i.bus i.result
  | some l =>
    match l.state with
    | .clearing _ => s.valueKnown g i.bus 0
    | .active => if l.delay = 0 then s.valueKnown g i.bus i.result else s.exchangeLine g i l

/-- EXCHANGE_VISIT (R73 to R76): the exchange reaches the pass's next bus. -/
def execExchangeVisit (g : GroupId) (s : State) : Host.Outcome State Fault Refusal :=
  .next (
    match s.passAt g .exchange with
    | none => s
    | some p =>
      match p.nextBus with
      | none => s
      | some i => (s.visit g i).finishPass g)

/-- PASS_READ_OFFER (R135): a pass that waits for room in the read queue offers its read when a place is free and no other pass has waited longer. -/
def execPassReadOffer (g : GroupId) (s : State) : Host.Outcome State Fault Refusal :=
  .next (
    if s.mem.readQ.length < Config.maxReads ∧ s.mem.readWait.head? = some g then (s.offerRead g).finishPass g
    else s)

/-- PASS_WRITE_OFFER (R75, R73): a pass that waits for room in the write queue has its write admitted when a place is free and no other pass has waited longer. -/
def execPassWriteOffer (g : GroupId) (s : State) : Host.Outcome State Fault Refusal :=
  .next (
    if s.mem.writeQ.length < Config.maxWrites ∧ s.mem.writeWait.head? = some g then (s.offerWrite g).finishPass g
    else s)

end Sys2Proof.Machine
end

