-- ==== Sys2Proof/Machine/Dispatch.lean ====
section
/-! DEFINITION. The effect of every command on everything but the queue, one arm per row of the opcode table. -/

namespace Sys2Proof.Machine

/-- What a command does. -/
def exec (i : Instr) (s : State) : Host.Outcome State Fault Refusal :=
  match i with
  | .partIdentify => Sys2Proof.Machine.execPartIdentify s
  | .partReset => Sys2Proof.Machine.execPartReset s
  | .pinSet => Sys2Proof.Machine.execPinSet s
  | .pinRead => Sys2Proof.Machine.execPinRead s
  | .noticeSet => Sys2Proof.Machine.execNoticeSet s
  | .faultRead => Sys2Proof.Machine.execFaultRead s
  | .quadPlan => Sys2Proof.Machine.execQuadPlan s
  | .quadStart => Sys2Proof.Machine.execQuadStart s
  | .laneRetire => Sys2Proof.Machine.execLaneRetire s
  | .groupPowerStandby => Sys2Proof.Machine.execGroupPowerStandby s
  | .groupPowerActive => Sys2Proof.Machine.execGroupPowerActive s
  | .groupMark => Sys2Proof.Machine.execGroupMark s
  | .groupRead => Sys2Proof.Machine.execGroupRead s
  | .busSet => Sys2Proof.Machine.execBusSet s
  | .busRead => Sys2Proof.Machine.execBusRead s
  | .clipClear => Sys2Proof.Machine.execClipClear s
  | .xpRead => Sys2Proof.Machine.execXpRead s
  | .routeRead => Sys2Proof.Machine.execRouteRead s
  | .routeClear => Sys2Proof.Machine.execRouteClear s
  | .cuePost => Sys2Proof.Machine.execCuePost s
  | .cueCancel => Sys2Proof.Machine.execCueCancel s
  | .cueRead => Sys2Proof.Machine.execCueRead s
  | .lineDefine => Sys2Proof.Machine.execLineDefine s
  | .lineClear => Sys2Proof.Machine.execLineClear s
  | .lineRelease => Sys2Proof.Machine.execLineRelease s
  | .lineRead => Sys2Proof.Machine.execLineRead s
  | .errorReply => Sys2Proof.Machine.execErrorReply s
  | .transferBegin start => Sys2Proof.Machine.execTransferBegin start s
  | .twoWireWriteAddress address => Sys2Proof.Machine.execTwoWireWriteAddress address s
  | .transferEnd received sent => Sys2Proof.Machine.execTransferEnd received sent s
  | .outgoingFrameComplete => Sys2Proof.Machine.execOutgoingFrameComplete s
  | .hardwareReset => Sys2Proof.Machine.execHardwareReset s
  | .resetRelease straps => Sys2Proof.Machine.execResetRelease straps s
  | .wordSelectEdge g high length => Sys2Proof.Machine.execWordSelectEdge g high length s
  | .wordComplete c bits => Sys2Proof.Machine.execWordComplete c bits s
  | .lossTimerExpiry g => Sys2Proof.Machine.execLossTimerExpiry g s
  | .frameStart g => Sys2Proof.Machine.execFrameStart g s
  | .cueStart g => Sys2Proof.Machine.execCueStart g s
  | .gainStep g => Sys2Proof.Machine.execGainStep g s
  | .accumulate g => Sys2Proof.Machine.execAccumulate g s
  | .exchangeVisit g => Sys2Proof.Machine.execExchangeVisit g s
  | .passReadOffer g => Sys2Proof.Machine.execPassReadOffer g s
  | .passWriteOffer g => Sys2Proof.Machine.execPassWriteOffer g s
  | .dramReadComplete => Sys2Proof.Machine.execDramReadComplete s
  | .dramWriteComplete => Sys2Proof.Machine.execDramWriteComplete s
  | .refreshDue => Sys2Proof.Machine.execRefreshDue s
  | .refreshComplete => Sys2Proof.Machine.execRefreshComplete s
  | .clearWrite => Sys2Proof.Machine.execClearWrite s
  | .pinEdge k change => Sys2Proof.Machine.execPinEdge k change s

end Sys2Proof.Machine
end

