-- ==== Sys2Proof/Safety.lean ====
section
/-! DEFINITION. The properties every run keeps (the canonical memory, the capacities, the counts that are kept equal to what they count, the channel set, the groups, the memory port's addresses, what hardware reset holds), and the words the statements are written in. -/

namespace Sys2Proof.Machine

/-! ### Memory and capacities -/

/-- The DRAM's words are in their one canonical form (log 9). -/
abbrev State.MemoryCanonical (s : State) : Prop := Memory.wf s.mem.dram = true

/-- The crosspoint table is in ascending order of bus and then of channel, so it holds no pair twice (R47, R67). -/
abbrev State.TableInOrder (s : State) : Prop :=
  s.mix.xp.Pairwise fun e f => xpKey e.channel e.bus < xpKey f.channel f.bus

/-- The tags of the cues in the list are distinct (R83). -/
abbrev State.TagsDistinct (s : State) : Prop := (s.cues.map Cue.tag).Nodup

/-- The link's queues are within their capacities (R149, R150). -/
abbrev State.LinkQueuesFit (s : State) : Prop :=
  s.link.requests.length ≤ 4 ∧ s.link.replies.length ≤ 4

/-- The memory port's queues are within their capacities (R135). -/
abbrev State.MemoryQueuesFit (s : State) : Prop :=
  s.mem.readQ.length ≤ 16 ∧ s.mem.writeQ.length ≤ 8

/-- The fault stack is within its capacity (R163). -/
abbrev State.FaultStackFits (s : State) : Prop := s.faults.length ≤ 3

/-- The cue list and the edit pool are within their capacities (R83, R87). -/
abbrev State.CueListFits (s : State) : Prop := s.cues.length ≤ 24 ∧ s.poolUsed ≤ 128

/-- The crosspoint table is within its capacity (R47). -/
abbrev State.TableFits (s : State) : Prop := s.mix.xp.length ≤ 96

/-! ### Counts (R42, R85, R87) -/

/-- How many entries the table has on a bus. -/
def State.entriesOn (s : State) (b : BusId) : Nat := (s.mix.xp.filter fun e => decide (e.bus = b)).length

/-- How many pool records name a bus. -/
def State.editsNaming (s : State) (b : BusId) : Nat :=
  ((s.cues.flatMap Cue.edits).filter fun e => decide (e.bus = b)).length

/-- How many channels a bus owns. -/
def State.channelsOwnedBy (s : State) (b : BusId) : Nat :=
  (allChannels.filter fun c => decide (s.route c = .owned b)).length

/-- How many entries carry a ramp that names a tag. -/
def State.rampsOf (s : State) (tag : Byte) : Nat :=
  (s.mix.xp.filter fun e => decide (e.owner = some tag)).length

/-- Every bus's entry count is the number of its entries (R42). -/
abbrev State.EntryCountsExact (s : State) : Prop := ∀ b : BusId, (s.bus b).entryCount = s.entriesOn b

/-- Every bus's hold count is the number of pool records that name it (R42, R87). -/
abbrev State.HoldCountsExact (s : State) : Prop := ∀ b : BusId, (s.bus b).holdCount = s.editsNaming b

/-- An APPLYING cue has no edits left in the pool (R87). -/
abbrev State.AppliedEditsLeft (s : State) : Prop := ∀ c ∈ s.cues, c.state = .applying → c.edits = []

/-- Every bus's owned channel count is the number of channels it owns (R42). -/
abbrev State.OwnedCountsExact (s : State) : Prop := ∀ b : BusId, (s.bus b).ownedCount = s.channelsOwnedBy b

/-- A cue record's own consistency: a WAITING cue owns no ramp, an APPLYING one owns some and holds no edits (R84, R85, R87). -/
abbrev Cue.Consistent (c : Cue) : Prop :=
  (c.state = .waiting → c.outstanding = 0) ∧ (c.state = .applying → 0 < c.outstanding ∧ c.edits = [])

/-- Every cue's ramps outstanding count is the number of ramps that name its tag, and every ramp names a cue in the list (R85, R50). -/
abbrev State.RampCountsExact (s : State) : Prop :=
  (∀ c ∈ s.cues, c.outstanding = s.rampsOf c.tag ∧ c.Consistent) ∧
  (∀ e ∈ s.mix.xp, ∀ r ∈ e.state.ramp, r.owner ∈ s.cues.map Cue.tag)

/-! ### The channel set (R2, R3, R54) -/

/-- No slot of a quad is carried by two lanes of a plan. -/
abbrev Plan.LanesApart (plan : Plan) : Prop :=
  ∀ p q : LanePos, p ≠ q → ∀ l ∈ plan.lanes[p], ∀ m ∈ plan.lanes[q], ∀ i : Fin 8, ¬(l.carries p i = true ∧ m.carries q i = true)

/-- A quad's stored plan, if there is one, has its lanes apart. -/
abbrev Quad.LanesApart (q : Quad) : Prop := ∀ p ∈ q.plan, p.LanesApart

/-- A route entry is ABSENT exactly when its slot is not an output channel of a started plan (R54). -/
abbrev State.RoutesFollowChannels (s : State) : Prop :=
  ∀ c : Channel, s.route c ≠ .absent ↔ s.isOutput c = true

/-! ### Quads and groups (R5, R8, R11, R14, R15, R18) -/

/-- Quad B's stored plan alone may be joined, and a STARTED joined quad B has a STARTED quad A beside it (R5, R8). -/
abbrev State.JoinedIsB (s : State) : Prop :=
  (∀ p ∈ (s.quad .A).plan, p.joined = false) ∧ (s.bJoined = true → (s.quad .A).startedPlan.isSome = true)

/-- A group's own quad is STARTED and not joined. -/
def State.ownQuadRuns (s : State) (g : GroupId) : Bool :=
  match (s.quad g).startedPlan with
  | some p => !p.joined
  | none => false

/-- A group is OFF exactly while its own quad does not run; its loss timer runs in ACQUIRING and LOCKED alone; it counts good frames in ACQUIRING alone; LOCKED has a half-frame in progress (R11, R14, R15, R18). -/
abbrev State.GroupConsistent (s : State) (g : GroupId) : Prop :=
  ((s.group g).state = .off ↔ s.ownQuadRuns g = false) ∧
  ((s.group g).lossTimer = true ↔ ((s.group g).state = .acquiring ∨ (s.group g).state = .locked)) ∧
  (s.group g).count < 2 ∧ ((s.group g).count ≠ 0 → (s.group g).state = .acquiring) ∧
  ((s.group g).state = .locked → (s.group g).half.isSome = true)

/-! ### Addresses (R126, R129) -/

/-- The clear position of a CLEARING line is an index of the line (R128). -/
def LineState.positionIn (length : Nat) : LineState → Bool
  | .clearing p => decide (p < length)
  | .active => true

/-- A line lies inside the DRAM, and its indices inside the line (R128, R129). -/
abbrev Line.InRange (words : Nat) (l : Line) : Prop :=
  l.base + l.length ≤ words ∧ l.writeIndex < l.length ∧ l.delay < l.length ∧ l.state.positionIn l.length = true

/-- The address of an access lies inside the DRAM. -/
def Access.inRange (words : Nat) : Access → Bool
  | .read a _ _ => decide (a < words)
  | .write a _ _ => decide (a < words)
  | .refresh => true

/-- The addresses a waiting pair still has to offer lie inside the DRAM. -/
abbrev Waiting.InRange (words : Nat) (w : Waiting) : Prop := w.write < words ∧ ∀ a ∈ w.read, a < words

/-- Every address the memory port holds or is still to be offered lies inside the DRAM. -/
abbrev State.AddressesInRange (s : State) : Prop :=
  (∀ b : BusId, ∀ l ∈ s.line b, l.InRange s.dramWords) ∧
  (∀ r ∈ s.mem.readQ, r.address < s.dramWords) ∧
  (∀ w ∈ s.mem.writeQ, w.address < s.dramWords) ∧
  (∀ x ∈ s.mem.access, x.inRange s.dramWords = true) ∧
  (∀ p ∈ s.pass .A, ∀ w ∈ p.wait, w.InRange s.dramWords) ∧
  (∀ p ∈ s.pass .B, ∀ w ∈ p.wait, w.InRange s.dramWords)

/-- No two buses' lines share a word (R129). -/
abbrev State.LinesApart (s : State) : Prop :=
  ∀ b c : BusId, b ≠ c → ∀ l ∈ s.line b, ∀ m ∈ s.line c, overlaps l.base l.length m = false

/-! ### Hardware reset (R156, R171) -/

/-- While RESET is held, every block but the pins' board levels, the straps and the DRAM's words is as hardware reset leaves it. -/
abbrev State.HeldAtReset (s : State) : Prop :=
  s.resetHeld = true →
    s.lane = LaneInterface.reset ∧ s.word = WordPath.reset ∧ s.mix = MixEngine.reset ∧ s.cues = [] ∧
    s.mem = MemoryPort.reset s.mem.dram ∧ s.link = Link.reset ∧ s.faults = [] ∧ s.pins = s.resetPins

/-! ### Words of the statements -/

/-- The executor takes a frame next: it is the oldest of the request queue, and the reply queue has room (R150). -/
abbrev State.Takes (s : State) (f : ReceivedFrame) : Prop :=
  s.link.replies.length < 4 ∧ s.link.requests.head? = some f

/-- The executor takes next a request of a kind with a payload. -/
abbrev State.Asks (s : State) (f : ReceivedFrame) (kind : RequestKind) (payload : List Byte) : Prop :=
  s.Takes f ∧ f.outcome = .request kind ∧ f.payload = payload

/-- The link when a frame has been taken and its reply has been made: the frame has left the request queue, the reply has joined the reply queue with the overrun flag as it stood, and the flag is clear (R147, R150, R151). -/
def Link.answered (l : Link) (f : ReceivedFrame) (status : Status) (payload : List Byte) : Link :=
  { l with
    requests := l.requests.tail
    replies := l.replies ++ [{ kind := 0x80 ||| (f.kind &&& 0x3F), tag := f.tag,
                               status := status.code ||| (if l.overrun then 0x80 else 0x00), payload := payload }]
    overrun := false }

/-- The state when a frame has been answered and nothing else has changed. -/
def State.answered (s : State) (f : ReceivedFrame) (status : Status) (payload : List Byte) : State :=
  { s with link := s.link.answered f status payload }

/-- The commands the executor carries out: each takes a frame of the request queue. -/
def executorCommands : List Instr :=
  [.partIdentify, .partReset, .pinSet, .pinRead, .noticeSet, .faultRead, .quadPlan, .quadStart, .laneRetire,
   .groupPowerStandby, .groupPowerActive, .groupMark, .groupRead, .busSet, .busRead, .clipClear, .xpRead, .routeRead,
   .routeClear, .cuePost, .cueCancel, .cueRead, .lineDefine, .lineClear, .lineRelease, .lineRead, .errorReply]

/-- What else the beginning of a half-frame of a group has done in `t`: the capture registers of the group's input channels of the side that begins are emptied and the others kept (R25, R26),
and a left half-frame of group A begins the capture of a joined quad B (R10). -/
abbrev State.BeginsHalf (s : State) (g : GroupId) (side : Side) (t : State) : Prop :=
  (∀ c : Channel, t.word.capture[c] = if s.isInputOf g c = true ∧ channelSide c = side then ⟨0, 0⟩ else s.word.capture[c]) ∧
  t.lane.joinedCapture = (s.lane.joinedCapture || (decide (g = .A ∧ side = .left) && s.bJoined))

/-- What else the halt of a group has done in `t`: its capture registers are emptied (R25); where it was LOCKED, its output channels transmit zero (R35; log 18)
and a joined quad B's OUT lanes are driven (R10); the rest of the word path is kept (R29, R34, R35). -/
abbrev State.HaltsLanes (s : State) (g : GroupId) (t : State) : Prop :=
  t.word = { s.word with capture := t.word.capture, settled := t.word.settled, previous := t.word.previous } ∧
  (∀ c : Channel,
    t.word.capture[c] = (if s.isInputOf g c then ⟨0, 0⟩ else s.word.capture[c]) ∧
    t.word.settled[c] = (if (s.group g).state = .locked ∧ s.isOutputOf g c = true then 0 else s.word.settled[c]) ∧
    t.word.previous[c] = (if (s.group g).state = .locked ∧ s.isOutputOf g c = true then 0 else s.word.previous[c])) ∧
  t.lane.joinedDriven = (s.lane.joinedDriven || (decide (g = .A ∧ (s.group g).state = .locked) && s.bJoined))

/-- The request kind a command of the executor takes; ERROR_REPLY takes none. -/
def kindTaken : Instr → Option RequestKind
  | .partIdentify => some .partIdentify
  | .partReset => some .partReset
  | .pinSet => some .pinSet
  | .pinRead => some .pinRead
  | .noticeSet => some .noticeSet
  | .faultRead => some .faultRead
  | .quadPlan => some .quadPlan
  | .quadStart => some .quadStart
  | .laneRetire => some .laneRetire
  | .groupPowerStandby => some .groupPower
  | .groupPowerActive => some .groupPower
  | .groupMark => some .groupMark
  | .groupRead => some .groupRead
  | .busSet => some .busSet
  | .busRead => some .busRead
  | .clipClear => some .clipClear
  | .xpRead => some .xpRead
  | .routeRead => some .routeRead
  | .routeClear => some .routeClear
  | .cuePost => some .cuePost
  | .cueCancel => some .cueCancel
  | .cueRead => some .cueRead
  | .lineDefine => some .lineDefine
  | .lineClear => some .lineClear
  | .lineRelease => some .lineRelease
  | .lineRead => some .lineRead
  | _ => none

/-- A frame belongs to a command: a request of its kind, for the two GROUP_POWER commands one that does not name the other target (log 16), and for ERROR_REPLY a frame that is no request. -/
abbrev ReceivedFrame.BelongsTo (f : ReceivedFrame) (c : Instr) : Prop :=
  (c = .errorReply ∧ ∀ kind, f.outcome ≠ .request kind) ∨
  (∃ kind, kindTaken c = some kind ∧ f.outcome = .request kind ∧
    (c = .groupPowerStandby → ∀ g, f.payload ≠ [byteOfLetter g, 0]) ∧
    (c = .groupPowerActive → ∀ g, f.payload ≠ [byteOfLetter g, 1]))

/-- A cue after some cues have completed: a WAITING cue chained to one of them has become NEXT, deferred while a pass of its group is in flight (R84, R99, R100). -/
def State.chained (s : State) (done : List Byte) (c : Cue) : Cue :=
  match c.trigger with
  | .after x => if c.state = .waiting ∧ x ∈ done then { c with trigger := .next, deferred := (s.pass c.group).isSome } else c
  | _ => c

/-- The cues and the link of a state after ramps of some entries are gone: every owner's count is lowered by its ramps among them;
a cue whose count reaches 0 completes, and the cues that do raise CUE_DONE in the order in which their last ramps go (R50, R59, R68, R100). -/
def State.CuesAfterLoss (s : State) (lost : List Entry) (cues : List Cue) (link : Link) : Prop :=
  let count (x : Byte) : Nat := (lost.filter fun e => decide (e.owner = some x)).length
  ∃ done : List Cue, done.Nodup ∧
    (∀ c, c ∈ done ↔ c ∈ s.cues ∧ c.outstanding ≠ 0 ∧ count c.tag = c.outstanding) ∧
    done.Pairwise (fun c d => ∃ e ∈ lost, e.owner = some d.tag ∧
      ∀ f ∈ lost, f.owner = some c.tag → xpKey f.channel f.bus < xpKey e.channel e.bus) ∧
    cues = ((s.cues.filter fun c => decide (c ∉ done)).map fun c =>
      s.chained (done.map Cue.tag) { c with outstanding := c.outstanding - count c.tag }) ∧
    link = done.foldl (fun l c => l.occur .cueDone (.cueDone c.group c.tag)) s.link

/-- The cues and the link of `t`, where an edit of the cue of a context has acted on an entry of `s`: the cue's count is raised for a new ramp, the count of the owner of a ramp taken over is lowered,
and an owner that is another cue, APPLYING and left with none, completes (R100, R112, R113). -/
def State.TakesOver (s : State) (x : CueContext) (e : Entry) (t : State) : Prop :=
  let raised := if x.rampLength = 0 then s.cues
    else s.cues.map fun d => if d.tag = x.tag then { d with outstanding := d.outstanding + 1 } else d
  (e.owner = none → t.cues = raised ∧ t.link = s.link) ∧
  (∀ y, e.owner = some y →
    let lowered := raised.map fun d => if d.tag = y then { d with outstanding := d.outstanding - 1 } else d
    ((y = x.tag ∨ ∀ d ∈ s.cues, d.tag = y → d.state = .applying → 2 ≤ d.outstanding) → t.cues = lowered ∧ t.link = s.link) ∧
    (∀ d ∈ s.cues, d.tag = y → y ≠ x.tag → s.TagsDistinct → d.state = .applying → d.outstanding = 1 →
      t.cues = ((lowered.filter fun c => decide (c.tag ≠ y)).map (s.chained [y])) ∧
      t.link = s.link.occur .cueDone (.cueDone d.group y)))

end Sys2Proof.Machine
end

