-- ==== Sys2Proof/Certificates/Slice0/Obligations.lean ====
section
/-! DEFINITION. The statements about the model, for the provers. -/

open Sys2Proof Sys2Proof.Machine

/-! ### The queue and the step -/

/-- A step with a command at the front of the queue is that command's effect on the state with the queue's rest; with no command waiting the block idles (the model's choice, log 2). -/
def Obligations.StepRunsFrontCommand : Prop :=
  (∀ (c : Instr) (rest : List Instr) (s : State), step { s with pending := c :: rest } = exec c { s with pending := rest }) ∧
  (∀ s : State, s.pending = [] → step s = .next s)

/-- Every command goes on to a next state, but for a DRAM access that completes at a word address the DRAM does not have (log 11); none is refused. No command touches the queue of waiting commands. -/
def Obligations.OnlyAMissingWordStops : Prop :=
  (∀ (c : Instr) (s : State),
     (∃ t, exec c s = .next t) ∨
     (∃ a, s.dramWords ≤ a ∧ exec c s = .fault (.noSuchWord a) ∧
       ((c = .dramReadComplete ∧ ∃ d f, s.mem.access = some (.read a d f)) ∨
        (c = .dramWriteComplete ∧ ∃ v f, s.mem.access = some (.write a v f))))) ∧
  (∀ (c : Instr) (s t : State), exec c s = .next t → t.pending = s.pending)

/-! ### The link: checks, replies, refusals -/

/-- The check byte: a register that starts at 00h, is exclusive-ORed with each byte and then shifted eight times with 07h fed in (R146). It closes every frame the part sends: a reply frame is the kind byte, the tag, the status byte, the payload length and the payload before it; a notice frame is C0h plus the class number, the payload length, the more flag and the class's bytes, those of FAULT being the number of fault records, of LOCK the states of groups A and B, of CUE_DONE the group and the tag, of CLIP and MARK the mask, of LINE the bus, and of PIN the pin and the level. -/
def Obligations.CheckIsTheCRC : Prop :=
  check [] = 0 ∧
  (∀ (bs : List Byte) (b : Byte), check (bs ++ [b]) =
    crcShift (crcShift (crcShift (crcShift (crcShift (crcShift (crcShift (crcShift (check bs ^^^ b)))))))))  ∧
  (∀ r : Byte, crcShift r = if r.msb = true then (r <<< 1) ^^^ 0x07 else r <<< 1) ∧
  (∀ bs : List Byte, check (bs ++ [check bs]) = 0) ∧
  (∀ (bs : List Byte) (f : ReceivedFrame), judge bs = some f →
    (f.outcome = .badCheck ↔ ((byteAt bs 2).toNat ≤ 60 ∧ (byteAt bs 2).toNat + 4 ≤ bs.length ∧
      check (bs.take ((byteAt bs 2).toNat + 4)) ≠ 0))) ∧
  (∀ r : Reply,
    let front : List Byte := [r.kind, r.tag, r.status, BitVec.ofNat 8 r.payload.length] ++ r.payload
    r.bytes = front ++ [check front]) ∧
  (∀ (s : State) (cls : NoticeClass) (n : PendingNotice),
    let body : List Byte := match n.payload with
      | .live => if cls = .lock then [(s.group .A).state.code, (s.group .B).state.code] else [BitVec.ofNat 8 s.faults.length]
      | .cueDone g tag => [byteOfLetter g, tag]
      | .clip mask => [mask.extractLsb' 8 8, mask.extractLsb' 0 8]
      | .mark mask => [(0 : BitVec 6) ++ mask]
      | .line b => [BitVec.ofNat 8 b.val]
      | .pin k high => [BitVec.ofNat 8 k.val, if high then 1 else 0]
    let kind : Byte := match cls with
      | .fault => 0xC0 | .lock => 0xC1 | .cueDone => 0xC2 | .clip => 0xC3 | .mark => 0xC4 | .line => 0xC5 | .pin => 0xC6
    let front : List Byte := [kind, BitVec.ofNat 8 (1 + body.length), if n.more then 1 else 0] ++ body
    s.noticeBytes cls n = front ++ [check front])

/-- A command of the executor whose own frame is the oldest of the request queue, with room in the reply queue, takes it: the frame receives exactly one reply, with its tag, its kind and the overrun flag, which is cleared, and it leaves the request queue (which PART_RESET empties when it is carried out); where the reply's status is not OK, nothing else has changed. Where the frame next to be taken is not the command's own, or none can be taken, nothing changes (the model's choice, log 1). A request belongs to the command of its kind, a GROUP POWER to the one of its target and a malformed one to both (the model's choice, log 16), and a frame that is no request to ERROR_REPLY. -/
def Obligations.EachTakenFrameGetsOneReply : Prop :=
  ∀ c ∈ executorCommands, ∀ s : State,
    (∀ f, s.Takes f → f.BelongsTo c → ∃ (t : State) (r : Reply), exec c s = .next t ∧
      t.link.replies = s.link.replies ++ [r] ∧ r.tag = f.tag ∧
      r.kind = 0x80 ||| (f.kind &&& 0x3F) ∧ r.status.msb = s.link.overrun ∧ t.link.overrun = false ∧
      t.link.requests = (if c = .partReset ∧ f.payload = [] then [] else s.link.requests.tail) ∧
      (r.status &&& 0x7F ≠ 0 → ∃ st, t = s.answered f st r.payload)) ∧
    ((∀ f, s.Takes f → ¬ f.BelongsTo c) → exec c s = .next s)

/-- TRANSFER_END: the judged frame of a transfer that carries a request enters the request queue, or, in SPI mode with the queue full, is discarded with the overrun flag set; an SPI interval that begins with 00h and a read transfer carry none. An outgoing frame cut short after at least one byte stays held; that the held frame is recorded here (log 8), and that a frame counts as cut short exactly when OUTGOING_FRAME_COMPLETE has not come, whatever the count of bytes sent (log 25), are the model's choices. Only the link changes. The bytes are judged by the table of R145, in its order. -/
def Obligations.TransferEndJudgesAndReceives : Prop :=
  (∀ (s : State) (x : Transfer) (bs : List Byte) (sent : Nat), s.link.transfer = some x →
     let base : Link := { s.link with
       transfer := none
       held := match x.outgoing with
         | none => s.link.held
         | some o => if o.complete = true then s.link.held else if o.removed = true then none
                     else if sent = 0 then s.link.held else some o.source }
     let carries := (x.form = .spi ∧ bs.head? ≠ some 0) ∨ x.form = .twoWireWrite
     (¬ carries → exec (.transferEnd bs sent) s = .next { s with link := base }) ∧
     (judge bs = none → exec (.transferEnd bs sent) s = .next { s with link := base }) ∧
     (∀ f, carries → judge bs = some f → s.link.requests.length < 4 →
       exec (.transferEnd bs sent) s = .next { s with link := { base with requests := s.link.requests ++ [f] } }) ∧
     (∀ f, x.form = .spi → bs.head? ≠ some 0 → judge bs = some f → 4 ≤ s.link.requests.length →
       exec (.transferEnd bs sent) s = .next { s with link := { base with overrun := true } })) ∧
  (∀ bs : List Byte,
     let len := (byteAt bs 2).toNat
     (bs.length < 3 → judge bs = none) ∧
     (3 ≤ bs.length → 60 < len → judge bs = some ⟨.tooLong, byteAt bs 0, byteAt bs 1, []⟩) ∧
     (3 ≤ bs.length → len ≤ 60 → bs.length < len + 4 → judge bs = some ⟨.short, byteAt bs 0, byteAt bs 1, []⟩) ∧
     (len ≤ 60 → len + 4 ≤ bs.length → check (bs.take (len + 3)) ≠ byteAt bs (len + 3) →
       judge bs = some ⟨.badCheck, byteAt bs 0, byteAt bs 1, []⟩) ∧
     (len ≤ 60 → len + 4 ≤ bs.length → check (bs.take (len + 3)) = byteAt bs (len + 3) →
       (∀ k : RequestKind, k.code ≠ byteAt bs 0) → judge bs = some ⟨.unknown, byteAt bs 0, byteAt bs 1, []⟩) ∧
     (len ≤ 60 → len + 4 ≤ bs.length → check (bs.take (len + 3)) = byteAt bs (len + 3) →
       ∀ k : RequestKind, k.code = byteAt bs 0 →
         judge bs = some ⟨.request k, byteAt bs 0, byteAt bs 1, (bs.drop 3).take len⟩))

/-- A transfer begins. TRANSFER_BEGIN in SPI mode and for the part's own read address in two-wire mode: the held frame, otherwise the oldest reply, otherwise the pending notice of the highest class, otherwise nothing; another read address is not acknowledged. TWO_WIRE_WRITE_ADDRESS of the part's own address is acknowledged, and a write transfer begins, exactly when the request queue holds fewer than 4 frames. While RESET is held (log 22), and on the pins of the other mode, nothing happens. Only the link's transfer and acknowledge change. What the part then sends: the outgoing frame's bytes and after them filler, 00h in SPI mode and FFh in two-wire mode, each byte most significant bit first; nothing in a write transfer, without a transfer, or while RESET is held. MISO carries it in SPI mode and is otherwise at high impedance, also after RESET is released while SS is still low from an interval the reset cut off (the model's choice, log 28). SDA is pulled low for the acknowledge of the part's address, for that of every data byte of a write transfer, and for each 0 bit of a read; it is released while RESET is held and in SPI mode (log 5), and SCL is never held low. -/
def Obligations.TransfersBegin : Prop :=
  (∀ (s : State) (x : TransferStart) (a : BitVec 7), s.resetHeld = true →
    exec (.transferBegin x) s = .next s ∧ exec (.twoWireWriteAddress a) s = .next s) ∧
  (∀ (s : State) (a : BitVec 7), s.twoWire = false → exec (.transferBegin (.readAddress a)) s = .next s ∧
    exec (.twoWireWriteAddress a) s = .next s) ∧
  (∀ s : State, s.twoWire = true → exec (.transferBegin .ssFall) s = .next s) ∧
  (∀ (s : State) (i : Nat),
    (s.resetHeld = true ∨ s.link.transfer = none → s.outgoingByte i = none) ∧
    (∀ x, s.link.transfer = some x → x.form = .twoWireWrite → s.outgoingByte i = none) ∧
    (∀ x, s.resetHeld = false → s.link.transfer = some x → x.form ≠ .twoWireWrite →
      let filler : Byte := if s.straps.linkSel then 0xFF else 0x00
      (x.outgoing = none → s.outgoingByte i = some filler) ∧
      (∀ o, x.outgoing = some o → s.outgoingByte i = some (o.bytes.getD i filler)))) ∧
  (∀ s : State,
    (s.twoWire = true → ∀ n, s.miso n = none) ∧
    (s.twoWire = false → ∀ (i : Nat) (j : Fin 8), s.miso (8 * i + j.val) = (s.outgoingByte i).map fun b => b.getLsbD (7 - j.val)) ∧
    (s.twoWire = false ∨ s.resetHeld = true → ∀ slot, s.sdaLow slot = false) ∧
    (s.twoWire = true → s.resetHeld = false →
      s.sdaLow .addressAck = s.link.addressAck ∧
      (s.sdaLow .dataAck = true ↔ ∃ x, s.link.transfer = some x ∧ x.form = .twoWireWrite) ∧
      ∀ (i : Nat) (j : Fin 8), s.sdaLow (.bit (8 * i + j.val)) = true ↔ ∃ b, s.outgoingByte i = some b ∧ b.getLsbD (7 - j.val) = false) ∧
    s.sclLow = false) ∧
  ∀ s : State, s.resetHeld = false → s.link.transfer = none →
    (∃ out : Option Outgoing,
      (s.twoWire = false → exec (.transferBegin .ssFall) s =
        .next { s with link := { s.link with transfer := some { form := .spi, outgoing := out } } }) ∧
      (s.twoWire = true → exec (.transferBegin (.readAddress s.linkAddress)) s =
        .next { s with link := { s.link with addressAck := true, transfer := some { form := .twoWireRead, outgoing := out } } }) ∧
      (∀ r rest, s.link.replies = r :: rest → s.link.held = none ∨ s.link.held = some .reply →
        out = some { source := .reply, bytes := r.bytes, complete := false, changed := false, removed := false }) ∧
      (∀ cls n, s.link.notice cls = some n →
        (s.link.held = some (.notice cls) ∨ (s.link.held = none ∧ s.link.replies = [] ∧
          ∀ d : NoticeClass, d.index < cls.index → s.link.notice d = none)) →
        out = some { source := .notice cls, bytes := s.noticeBytes cls n, complete := false, changed := false, removed := false }) ∧
      (s.link.held = none → s.link.replies = [] → (∀ cls, s.link.notice cls = none) → out = none)) ∧
    (∀ a, s.twoWire = true → a ≠ s.linkAddress →
      exec (.transferBegin (.readAddress a)) s = .next { s with link := { s.link with addressAck := false } }) ∧
    (s.twoWire = true → s.link.requests.length < 4 →
      exec (.twoWireWriteAddress s.linkAddress) s = .next { s with link := { s.link with
        addressAck := true, transfer := some { form := .twoWireWrite, outgoing := none } } }) ∧
    (∀ a, s.twoWire = true → a ≠ s.linkAddress ∨ 4 ≤ s.link.requests.length →
      exec (.twoWireWriteAddress a) s = .next { s with link := { s.link with addressAck := false } })

/-- OUTGOING_FRAME_COMPLETE: the held frame is cleared; a reply leaves the reply queue, and a notice leaves the notice set unless an occurrence changed it since the frame was built. -/
def Obligations.CompleteFramesLeave : Prop :=
  ∀ (s : State) (x : Transfer) (o : Outgoing), s.link.transfer = some x → x.outgoing = some o → o.complete = false →
    ∃ t, exec .outgoingFrameComplete s = .next t ∧ t = { s with link := t.link } ∧ t.link.held = none ∧
      t.link.transfer.map Transfer.form = some x.form ∧
      (t.link.transfer.bind Transfer.outgoing).map Outgoing.complete = some true ∧
      t.link.requests = s.link.requests ∧ t.link.overrun = s.link.overrun ∧ t.link.enable = s.link.enable ∧
      t.link.twoLine = s.link.twoLine ∧ t.link.addressAck = s.link.addressAck ∧
      t.link.transfer = some { x with outgoing := some { o with complete := true } } ∧
      (o.source = .reply → t.link.replies = s.link.replies.tail ∧ t.link.notices = s.link.notices) ∧
      (∀ cls, o.source = .notice cls → t.link.replies = s.link.replies ∧
        ∀ d, t.link.notice d = if d = cls ∧ o.changed = false then none else s.link.notice d)

/-! ### Notices and the fault stack -/

/-- An occurrence of a class: nothing while the class is disabled; otherwise a pending notice with its more flag clear, or, where one is pending, its payload updated and its more flag set. An outgoing notice of the class in the transfer in progress learns that it has changed; nothing else of the link changes. -/
def Obligations.OccurrencesMakeNotices : Prop :=
  ∀ (l : Link) (cls : NoticeClass) (p : NoticePayload),
    (l.enabled cls = false → l.occur cls p = l) ∧
    (l.enabled cls = true → l.notice cls = none →
      (l.occur cls p).notice cls = some { payload := p, more := false }) ∧
    (∀ old, l.enabled cls = true → l.notice cls = some old →
      ∃ q, (l.occur cls p).notice cls = some { payload := q, more := true } ∧
        (∀ m n, old.payload = .clip m → p = .clip n → q = .clip (m ||| n)) ∧
        (∀ m n, old.payload = .mark m → p = .mark n → q = .mark (m ||| n)) ∧
        ((∀ n, p ≠ .clip n) → (∀ n, p ≠ .mark n) → q = p)) ∧
    (∀ d, d ≠ cls → (l.occur cls p).notice d = l.notice d) ∧
    (l.occur cls p).requests = l.requests ∧ (l.occur cls p).replies = l.replies ∧ (l.occur cls p).overrun = l.overrun ∧
    (l.occur cls p).held = l.held ∧ (l.occur cls p).enable = l.enable ∧ (l.occur cls p).twoLine = l.twoLine ∧
    (l.occur cls p).addressAck = l.addressAck ∧
    (l.enabled cls = true → (l.occur cls p).transfer = l.transfer.map fun x =>
      { x with outgoing := x.outgoing.map fun o => if o.source = .notice cls then { o with changed := true } else o })

/-- A push onto the fault stack, which is always one occurrence of the FAULT class and changes nothing else (R163). -/
def Obligations.FaultPushFollowsTheTop : Prop :=
  (∀ (s : State) (f : FaultRecord), s.faults.length ≤ 3 →
    s.pushFault f = { s with faults := (s.pushFault f).faults, link := s.link.occur .fault .live } ∧
    (∀ top rest, s.faults = top :: rest → top.code = f.code → top.group = f.group →
      (s.pushFault f).faults = { top with repeated := true } :: rest) ∧
    ((∀ top ∈ s.faults.head?, ¬(top.code = f.code ∧ top.group = f.group)) → s.faults.length < 3 →
      (s.pushFault f).faults = f :: s.faults) ∧
    (∀ a b c, s.faults = [a, b, c] → ¬(a.code = f.code ∧ a.group = f.group) →
      (s.pushFault f).faults = [{ f with lostBelow := true }, a, b]) ∧
    (s.pushFault f).faults.length ≤ 3) ∧
  (∀ s : State, s.noticeBody .fault .live = [BitVec.ofNat 8 s.faults.length])

/-- FAULT_READ: the top record is removed and returned with the number left; a stack that becomes empty takes the pending FAULT notice with it, which is then held no longer, and a transfer that is sending it learns that it has left; an empty stack answers NONE (R165). A fault record is 15 bytes: presence, flags, code, then group, channel, bus, second bus, tag, frame number and address, zero where absent. -/
def Obligations.FaultReadTakesTheTop : Prop :=
  (∀ (s : State) (f : ReceivedFrame),
     (∀ top rest, s.Asks f .faultRead [] → s.faults = top :: rest → rest ≠ [] →
       exec .faultRead s = .next { s with
         faults := rest, link := s.link.answered f .ok (top.bytes ++ [BitVec.ofNat 8 rest.length]) }) ∧
     (∀ top, s.Asks f .faultRead [] → s.faults = [top] →
       exec .faultRead s = .next { s with
         faults := [], link := (s.link.dropNotice .fault).answered f .ok (top.bytes ++ [0]) }) ∧
     (s.Asks f .faultRead [] → s.faults = [] → exec .faultRead s = .next (s.answered f .none [])) ∧
     (∀ p, p ≠ [] → s.Asks f .faultRead p → exec .faultRead s = .next (s.answered f .badValue []))) ∧
  (∀ l : Link, ∃ notices, l.dropNotice .fault = { l with
       notices := notices
       held := if l.held = some (.notice .fault) then none else l.held
       transfer := l.transfer.map fun x => { x with
         outgoing := x.outgoing.map fun o => if o.source = .notice .fault then { o with removed := true } else o } } ∧
     ∀ cls, (l.dropNotice .fault).notice cls = if cls = .fault then none else l.notice cls) ∧
  (∀ r : FaultRecord, ∃ presence flags : Byte,
     r.bytes = [presence, flags, r.code.code,
       (r.group.map byteOfLetter).getD 0, (r.channel.map fun c => BitVec.ofNat 8 c.val).getD 0,
       (r.bus.map fun b => BitVec.ofNat 8 b.val).getD 0, (r.secondBus.map fun b => BitVec.ofNat 8 b.val).getD 0, r.tag.getD 0]
       ++ bytes32 (r.frame.getD 0) ++ num24 (r.address.getD 0) ∧
     (∀ i : Fin 8, presence.getLsbD i.val = match i with
       | 0 => r.group.isSome | 1 => r.channel.isSome | 2 => r.bus.isSome | 3 => r.secondBus.isSome
       | 4 => r.tag.isSome | 5 => r.frame.isSome | 6 => r.address.isSome | 7 => false) ∧
     (∀ i : Fin 8, flags.getLsbD i.val = match i with
       | 0 => r.repeated | 1 => r.lostBelow | _ => false))

/-- NOTICE_SET: the mask and the mode are written; a class that goes from enabled to disabled loses its pending notice, which is then held no longer, and a transfer that is sending it learns that it has left; the reply is the mask of the notices removed; a return to ONE-LINE takes GP3's present level as its reference. -/
def Obligations.NoticeSetWritesMaskAndMode : Prop :=
  ∀ (s : State) (f : ReceivedFrame) (m : Byte) (two : Bool),
    s.Asks f .noticeSet [m, if two then 1 else 0] → m.getLsbD 7 = false →
    ((two = true ∧ ∃ c ∈ s.cues, c.state = .waiting ∧ c.trigger = .pin 3) →
      exec .noticeSet s = .next (s.answered f .inUse [])) ∧
    ((two = false ∨ ∀ c ∈ s.cues, c.state = .waiting → c.trigger ≠ .pin 3) →
      ∃ (t : State) (gone : Byte), exec .noticeSet s = .next t ∧
        t = { s with link := t.link, pins := t.pins } ∧
        t.link.enable = m.setWidth 7 ∧ t.link.twoLine = two ∧
        t.link.requests = s.link.requests.tail ∧ t.link.overrun = false ∧
        t.link.replies = s.link.replies ++ [⟨0x80 ||| (f.kind &&& 0x3F), f.tag, if s.link.overrun then 0x80 else 0, [gone]⟩] ∧
        (∀ cls, t.link.notice cls =
          if s.link.enabled cls = true ∧ m.getLsbD cls.index.val = false then none else s.link.notice cls) ∧
        (∀ cls, gone.getLsbD cls.index.val =
          (s.link.enabled cls && !m.getLsbD cls.index.val && (s.link.notice cls).isSome)) ∧
        (∀ cls, s.link.held = some (.notice cls) → gone.getLsbD cls.index.val = true → t.link.held = none) ∧
        ((∀ cls, s.link.held = some (.notice cls) → gone.getLsbD cls.index.val = false) → t.link.held = s.link.held) ∧
        t.link.addressAck = s.link.addressAck ∧
        (t.link.transfer = s.link.transfer.map fun x => { x with outgoing := x.outgoing.map fun o =>
          match o.source with
          | .reply => o
          | .notice cls => if gone.getLsbD cls.index.val then { o with removed := true } else o }) ∧
        (∀ k : PinId, k ≠ 3 ∨ s.link.twoLine = false ∨ two = true → t.pins[k] = s.pins[k]) ∧
        (s.link.twoLine = true → two = false → t.pins[(3 : PinId)] = { s.pins[(3 : PinId)] with reference := some (t.pinLevel 3) }))

/-! ### Resets and identification -/

/-- HARDWARE_RESET puts every block at its reset values, with the straps, the board's pin levels and the DRAM's words kept, but for the word that was being written, which is a free value (log 10). RESET_RELEASE samples the straps and changes nothing else; without a hardware reset to end it is no event (log 1). -/
def Obligations.HardwareResetAndRelease : Prop :=
  (∀ s : State, ∃ t, exec .hardwareReset s = .next t ∧ t.resetHeld = true ∧ t.straps = s.straps ∧ t.pending = s.pending ∧
    t.lane = LaneInterface.reset ∧ t.word = WordPath.reset ∧ t.mix = MixEngine.reset ∧ t.cues = [] ∧
    t.link = Link.reset ∧ t.faults = [] ∧ (∀ k : PinId, t.pins[k] = GeneralPin.reset s.pins[k].board) ∧
    t.mem = MemoryPort.reset t.mem.dram ∧
    (∀ a, (∀ v f, s.mem.access ≠ some (.write a v f)) → Memory.read t.mem.dram a = Memory.read s.mem.dram a) ∧
    (∀ a v f, s.mem.access = some (.write a v f) → t.free = s.free + 1) ∧
    ((∀ a v f, s.mem.access ≠ some (.write a v f)) → t.free = s.free)) ∧
  (∀ (s : State) (x : Straps),
    (s.resetHeld = true → exec (.resetRelease x) s = .next { s with resetHeld := false, straps := x }) ∧
    (s.resetHeld = false → exec (.resetRelease x) s = .next s))

/-- PART_RESET: the OK reply is queued, and every block takes its soft-reset values; the replies, a held reply, the straps, the fault stack and the DRAM's words are kept. The transfer in progress goes on, and a notice it is sending has left the notice set; so do the access under way and a due refresh, a read without its destination (the model's reading, log 21). -/
def Obligations.SoftResetKeepsRepliesAndFaults : Prop :=
  ∀ (s : State) (f : ReceivedFrame), s.Asks f .partReset [] →
    ∃ t, exec .partReset s = .next t ∧ t.pending = s.pending ∧ t.resetHeld = s.resetHeld ∧ t.straps = s.straps ∧
      t.faults = s.faults ∧ t.free = s.free ∧
      t.lane = LaneInterface.reset ∧ t.word = WordPath.reset ∧ t.mix = MixEngine.reset ∧ t.cues = [] ∧
      (∀ k : PinId, t.pins[k] = GeneralPin.reset s.pins[k].board) ∧
      t.mem = { MemoryPort.reset s.mem.dram with access := t.mem.access, refreshDue := s.mem.refreshDue } ∧
      (∀ a d q, s.mem.access = some (.read a d q) → t.mem.access = some (.read a none q)) ∧
      (∀ a v q, s.mem.access = some (.write a v q) → t.mem.access = s.mem.access) ∧
      (s.mem.access = some .refresh ∨ s.mem.access = none → t.mem.access = s.mem.access) ∧
      t.link.requests = [] ∧ t.link.overrun = false ∧ t.link.enable = 3 ∧ t.link.twoLine = false ∧
      (∀ cls, t.link.notice cls = none) ∧
      t.link.replies = s.link.replies ++ [⟨0x80 ||| (f.kind &&& 0x3F), f.tag, if s.link.overrun then 0x80 else 0, []⟩] ∧
      (t.link.held = if s.link.held = some .reply then some .reply else none) ∧
      t.link.addressAck = s.link.addressAck ∧
      t.link.transfer = s.link.transfer.map fun x => { x with
        outgoing := x.outgoing.map fun o => if o.source = .reply then o else { o with removed := true } }

/-- The state after reset, which is the state just after hardware reset (log 3), has the values the spec gives. That a general pin has no reference level until a level has been sensed is the model's reading of R171 (log 15). -/
def Obligations.ResetValues : Prop :=
  let s := State.reset
  (∀ q, s.quad q = .unplanned) ∧
  (∀ g, (s.group g).state = .off ∧ (s.group g).counter = 0 ∧ (s.group g).count = 0 ∧ (s.group g).lossTimer = false ∧
    (s.group g).mark = 0xFFFFFFFF ∧ (s.group g).markMode = .pulse ∧ (s.group g).markOut = false ∧ s.pass g = none ∧
    s.word.firstFrame.get g = false) ∧
  (∀ c : Channel, s.word.capture[c].count = 0 ∧ s.word.inSlot[c] = 0 ∧ s.word.outSlot[c] = ⟨0, false⟩ ∧
    s.word.lastWord[c] = 0 ∧ s.route c = .absent) ∧
  (∀ b, s.bus b = ⟨none, .convergent, .saturate, false, 0, 0, 0⟩ ∧ s.line b = none) ∧
  s.mix.xp = [] ∧ s.cues = [] ∧ s.mem.clearing = [] ∧ s.mem.readQ = [] ∧ s.mem.writeQ = [] ∧ s.mem.openRow = none ∧
  s.link.requests = [] ∧ s.link.replies = [] ∧ s.link.overrun = false ∧ s.link.held = none ∧
  (∀ cls, s.link.notice cls = none) ∧ s.link.enable = 0b0000011 ∧ s.link.twoLine = false ∧ s.faults = [] ∧
  (∀ k : PinId, s.pins[k].role = .input ∧ s.pins[k].openDrain = false ∧ s.pins[k].report = false ∧ s.pins[k].reference = none)

/-- PART_IDENTIFY: part and revision code, straps, DRAM size, the quads' states and quad B's joined flag; it changes no state (R172). -/
def Obligations.PartIdentifyReports : Prop :=
  ∀ (s : State) (f : ReceivedFrame) (words : Nat),
    (words = match s.straps.memSz1, s.straps.memSz0 with
      | false, false => 0 | false, true => 1048576 | true, false => 2 * 1048576 | true, true => 4 * 1048576) →
    (s.Asks f .partIdentify [] →
      exec .partIdentify s = .next (s.answered f .ok
        [0x28, 0x01,
         (0 : BitVec 3) ++ BitVec.ofBool s.straps.memSz1 ++ BitVec.ofBool s.straps.memSz0 ++ BitVec.ofBool s.straps.addr1
           ++ BitVec.ofBool s.straps.addr0 ++ BitVec.ofBool s.straps.linkSel,
         BitVec.ofNat 8 (words / 65536), BitVec.ofNat 8 (words / 256), BitVec.ofNat 8 words,
         (s.quad .A).code, (s.quad .B).code, if ((s.quad .B).plan.map Plan.joined) = some true then 1 else 0])) ∧
    (∀ p, p ≠ [] → s.Asks f .partIdentify p → exec .partIdentify s = .next (s.answered f .badValue []))

/-! ### General pins -/

/-- PIN_SET: the three settings are stored, and the pin's present level becomes the reference unless GP3 is taken; a pin with a waiting cue does not lose its trigger role; a report setting needs the INPUT role. -/
def Obligations.PinSetStoresTheSettings : Prop :=
  ∀ (s : State) (f : ReceivedFrame) (k : PinId) (role : PinRole) (drain report : Bool),
    s.Asks f .pinSet [BitVec.ofNat 8 k.val, role.code, if drain then 1 else 0, if report then 1 else 0] →
    (report = true → role ≠ .input → exec .pinSet s = .next (s.answered f .badValue [])) ∧
    ((report = true → role = .input) →
    (((s.pins[k].role = .triggerRise ∨ s.pins[k].role = .triggerFall) ∧ role ≠ .triggerRise ∧ role ≠ .triggerFall ∧
        ∃ c ∈ s.cues, c.state = .waiting ∧ c.trigger = .pin k) →
      exec .pinSet s = .next (s.answered f .inUse [])) ∧
    (¬((s.pins[k].role = .triggerRise ∨ s.pins[k].role = .triggerFall) ∧ role ≠ .triggerRise ∧ role ≠ .triggerFall ∧
        ∃ c ∈ s.cues, c.state = .waiting ∧ c.trigger = .pin k) →
      ∃ t, exec .pinSet s = .next t ∧
        t = { s with pins := s.pins.set k t.pins[k], link := s.link.answered f .ok [] } ∧
        t.pins[k] = { role := role, openDrain := drain, report := report,
                      reference := if s.link.twoLine = true ∧ k = 3 then s.pins[k].reference else some (t.pinLevel k),
                      board := s.pins[k].board }))

/-- The output lines follow the state. ATTN0 shows a pending reply or notice (other than FAULT in TWO-LINE mode), ATTN1 a pending FAULT notice, READY a request queue with room. A general pin shows what its role drives, or the board's level where the part leaves the pin alone; an open-drain pin released for high has the board's level. That a pin driven push-pull has the part's level whatever the board does is the model's choice (log 15). GP3 while taken is driven as ATTN1 by its stored drive type, one stored while it is taken included (the model's choice, log 29), and every general pin is at high impedance while RESET is held. A lane data pin is at high impedance while its quad is not started, its position absent, or a joined quad B's OUT lane not yet driven; an IN lane's pin is captured; an OUT lane's is driven low while its group is not LOCKED, and otherwise carries words: word i of a side from bit position d + i * len on, most significant bit first, of the sample last settled for its slot, and low where no word is. With d = 1, position 0 still has the last bit of the half-frame before, of the samples of its frame; with d = 0, a half-frame that has counted its length already has the next one's first bit. -/
def Obligations.LinesFollowTheState : Prop :=
  (∀ s : State,
    (s.attn0 = true ↔ (s.link.replies ≠ [] ∨
      ∃ cls, s.link.notice cls ≠ none ∧ (cls = .fault → s.link.twoLine = false))) ∧
    (s.attn1 = true ↔ s.link.notice .fault ≠ none) ∧
    (s.ready = true ↔ s.link.requests.length < 4)) ∧
  (∀ (s : State) (k : PinId), s.resetHeld = false → (s.link.twoLine = false ∨ k ≠ 3) →
    (s.pins[k].role = .input ∨ s.pins[k].role = .triggerRise ∨ s.pins[k].role = .triggerFall → s.pinLevel k = s.pins[k].board) ∧
    (s.pins[k].role = .outputLow → s.pinLevel k = false) ∧
    (s.pins[k].role = .outputHigh → s.pinLevel k = if s.pins[k].openDrain then s.pins[k].board else true) ∧
    (∀ g : GroupId, s.pins[k].role = (match g with | .A => .markA | .B => .markB) →
      s.pinLevel k = ((s.group g).markOut && (!s.pins[k].openDrain || s.pins[k].board))) ∧
    (∀ g : GroupId, s.pins[k].role = (match g with | .A => .lockedA | .B => .lockedB) →
      s.pinLevel k = (decide ((s.group g).state = .locked) && (!s.pins[k].openDrain || s.pins[k].board)))) ∧
  (∀ (s : State) (k : PinId),
    let role : Option Bool := match s.pins[k].role with
      | .input => none | .triggerRise => none | .triggerFall => none | .outputLow => some false | .outputHigh => some true
      | .markA => some (s.group .A).markOut | .markB => some (s.group .B).markOut
      | .lockedA => some (decide ((s.group .A).state = .locked)) | .lockedB => some (decide ((s.group .B).state = .locked))
    let level : Option Bool := if s.link.twoLine = true ∧ k = 3 then some (s.link.notice .fault).isSome else role
    (s.resetHeld = true → s.pinDrive k = .highImpedance) ∧
    (s.resetHeld = false → s.pinDrive k = match level with
      | none => .highImpedance
      | some false => .low
      | some true => if s.pins[k].openDrain then .highImpedance else .high) ∧
    (s.pinLevel k = match s.pinDrive k with
      | .highImpedance => s.pins[k].board | .low => false | .high => true)) ∧
  (∀ (s : State) (q : QuadId) (p : LanePos),
    ((s.quad q).startedPlan = none → s.laneDrive q p = .highImpedance) ∧
    (∀ plan, (s.quad q).startedPlan = some plan →
      (plan.lanes[p] = none → s.laneDrive q p = .highImpedance) ∧
      (∀ l, plan.lanes[p] = some l →
        let g : GroupId := if q = .B ∧ plan.joined = false then .B else .A
        let waits := q = .B ∧ plan.joined = true ∧ s.lane.joinedDriven = false
        (l.direction = .input → s.laneDrive q p = .captured) ∧
        (l.direction = .output → waits → s.laneDrive q p = .highImpedance) ∧
        (l.direction = .output → ¬ waits → (s.group g).state ≠ .locked → s.laneDrive q p = .drivenLow) ∧
        (l.direction = .output → ¬ waits → (s.group g).state = .locked → s.laneDrive q p = .words)))) ∧
  (∀ (s : State) (c : Channel),
    (s.channelLane c = none → s.outputWord c = none) ∧
    (∀ p l, s.channelLane c = some (p, l) → s.outputWord c =
      if l.direction = .output then some (wordOfSample l.wordLength s.word.settled[c]) else none)) ∧
  (∀ (s : State) (q : QuadId) (p : LanePos) (side : Side) (position : Nat),
    (s.laneDrive q p = .highImpedance ∨ s.laneDrive q p = .captured → s.laneLevel q p side position = none) ∧
    (s.laneDrive q p = .drivenLow → s.laneLevel q p side position = some false)) ∧
  (∀ (s : State) (q : QuadId) (p : LanePos) (plan format : Plan) (l : LanePlan),
    s.laneDrive q p = .words → (s.quad q).startedPlan = some plan → plan.lanes[p] = some l →
    let g : GroupId := if q = .B ∧ plan.joined = false then .B else .A
    let d := if format.firstBitDelay then 1 else 0
    let len := l.wordLength.bits
    (s.quad g).startedPlan = some format → l.granted * len ≤ format.halfLength →
    (∀ (side : Side) (i j : Nat) (c : Channel), i < l.granted → j < len → channelQuad c = q → channelSlot c = 2 * p.val + 2 * i + (if side = .left then 0 else 1) →
      s.laneLevel q p side (d + i * len + j) = some ((wordOfSample l.wordLength s.word.settled[c]).getLsbD (len - 1 - j))) ∧
    (∀ (side : Side) (position : Nat), d + l.granted * len ≤ position → position < format.halfLength →
      s.laneLevel q p side position = some false) ∧
    (∀ (side : Side), format.firstBitDelay = true → l.granted * len < format.halfLength → s.laneLevel q p side 0 = some false) ∧
    (∀ (side : Side) (c : Channel), format.firstBitDelay = true → l.granted * len = format.halfLength → channelQuad c = q →
      channelSlot c = 2 * p.val + 2 * (l.granted - 1) + (if side = .left then 1 else 0) → 1 ≤ l.granted →
      s.laneLevel q p side 0 = some ((wordOfSample l.wordLength
        (if side = .left ∧ (s.group g).startDue = false then s.word.previous[c] else s.word.settled[c])).getLsbD 0)) ∧
    (∀ (side : Side), format.firstBitDelay = false → 1 ≤ l.granted →
      s.laneLevel q p side format.halfLength = s.laneLevel q p (match side with | .left => .right | .right => .left) 0))

/-- PIN_EDGE. While RESET is held, and where no rising edge of REFCLK senses the pin (log 26), the board's level changes and nothing else. The first level sensed after a reset is no edge (log 15). On a pin that the part drives, GP3 while taken included, the reference takes the level on the pin and nothing else happens. On a pin that it leaves to the board, a level that differs from the reference is an edge; a trigger edge arms every WAITING cue of the pin, a reported edge raises PIN, and the reference takes the level. -/
def Obligations.PinEdgeArmsAndReports : Prop :=
  (∀ (s : State) (k : PinId) (high sensed : Bool), s.resetHeld = true ∨ sensed = false →
    exec (.pinEdge k ⟨high, sensed⟩) s = .next { s with pins := s.pins.set k { s.pins[k] with board := high } }) ∧
  (∀ (s : State) (k : PinId) (high : Bool), s.resetHeld = false →
    ((s.link.twoLine = true ∧ k = 3) ∨ s.pins[k].role ∉ [PinRole.input, .triggerRise, .triggerFall]) →
    ∃ t, exec (.pinEdge k ⟨high, true⟩) s = .next t ∧
      t = { s with pins := s.pins.set k { s.pins[k] with board := high, reference := some (t.pinLevel k) } }) ∧
  ∀ (s : State) (k : PinId) (high : Bool), s.resetHeld = false → (s.link.twoLine = false ∨ k ≠ 3) →
    ∀ role, s.pins[k].role = role → (role = .input ∨ role = .triggerRise ∨ role = .triggerFall) →
    let u : State := { s with pins := s.pins.set k { s.pins[k] with board := high, reference := some high } }
    (s.pins[k].reference ≠ some (!high) → exec (.pinEdge k ⟨high, true⟩) s = .next u) ∧
    (s.pins[k].reference = some (!high) →
      exec (.pinEdge k ⟨high, true⟩) s = .next (
        if (role = .triggerRise ∧ high = true) ∨ (role = .triggerFall ∧ high = false) then
          { u with cues := s.cues.map fun c => if c.state = .waiting ∧ c.trigger = .pin k then { c with armed := true } else c }
        else if role = .input ∧ s.pins[k].report = true then { u with link := s.link.occur .pin (.pin k high) }
        else u))

/-- ERROR_REPLY answers a TOO_LONG, SHORT or BAD_CHECK frame with that status, and an UNKNOWN frame with its kind byte. A request whose payload has not the length its layout gives, or whose quad, group, bus, channel, position, pin, role, mode, setting or start field is out of range, is refused BAD_VALUE and changes nothing. That either of the two GROUP_POWER commands takes a GROUP POWER that names no target is the model's choice (log 16). -/
def Obligations.UnfitFramesAreAnswered : Prop :=
  (∀ (s : State) (f : ReceivedFrame) (p : List Byte) (c : Instr) (kind : RequestKind) (length : Nat),
     s.Asks f kind p → p.length ≠ length →
     ((c, kind, length) ∈ [(Instr.partIdentify, RequestKind.partIdentify, 0), (.partReset, .partReset, 0), (.pinSet, .pinSet, 4),
         (.pinRead, .pinRead, 0), (.noticeSet, .noticeSet, 2), (.faultRead, .faultRead, 0), (.quadPlan, .quadPlan, 8),
         (.quadStart, .quadStart, 1), (.laneRetire, .laneRetire, 2), (.groupPowerStandby, .groupPower, 2),
         (.groupPowerActive, .groupPower, 2), (.groupMark, .groupMark, 6), (.groupRead, .groupRead, 1), (.busSet, .busSet, 4),
         (.busRead, .busRead, 1), (.clipClear, .clipClear, 2), (.xpRead, .xpRead, 2), (.routeRead, .routeRead, 0),
         (.routeClear, .routeClear, 1), (.cueCancel, .cueCancel, 1), (.cueRead, .cueRead, 1), (.lineDefine, .lineDefine, 7),
         (.lineClear, .lineClear, 1), (.lineRelease, .lineRelease, 1), (.lineRead, .lineRead, 1)] ∨
       (c = .cuePost ∧ kind = .cuePost ∧ length = 10 + 6 * (byteAt p 9).toNat)) →
     exec c s = .next (s.answered f .badValue [])) ∧
  (∀ (s : State) (f : ReceivedFrame) (p : List Byte) (c : Instr) (kind : RequestKind) (i bound : Nat),
     s.Asks f kind p → bound ≤ (byteAt p i).toNat →
     (c, kind, i, bound) ∈ [(Instr.pinSet, RequestKind.pinSet, 0, 4), (.pinSet, .pinSet, 1, 9), (.pinSet, .pinSet, 2, 2),
         (.pinSet, .pinSet, 3, 2), (.noticeSet, .noticeSet, 0, 128), (.noticeSet, .noticeSet, 1, 2), (.quadStart, .quadStart, 0, 2),
         (.laneRetire, .laneRetire, 0, 2), (.laneRetire, .laneRetire, 1, 4), (.groupPowerStandby, .groupPower, 0, 2),
         (.groupPowerStandby, .groupPower, 1, 2), (.groupPowerActive, .groupPower, 0, 2), (.groupPowerActive, .groupPower, 1, 2),
         (.groupMark, .groupMark, 0, 2), (.groupMark, .groupMark, 5, 2), (.groupRead, .groupRead, 0, 2), (.busSet, .busSet, 0, 16),
         (.busSet, .busSet, 1, 3), (.busSet, .busSet, 2, 2), (.busSet, .busSet, 3, 2), (.busRead, .busRead, 0, 16),
         (.xpRead, .xpRead, 0, 16), (.xpRead, .xpRead, 1, 16), (.routeClear, .routeClear, 0, 16), (.cueRead, .cueRead, 0, 24),
         (.lineDefine, .lineDefine, 0, 16), (.lineClear, .lineClear, 0, 16), (.lineRelease, .lineRelease, 0, 16),
         (.lineRead, .lineRead, 0, 16)] →
     exec c s = .next (s.answered f .badValue [])) ∧
  (∀ (s : State) (f : ReceivedFrame), s.Takes f →
     (f.outcome = .tooLong → exec .errorReply s = .next (s.answered f .tooLong [])) ∧
     (f.outcome = .short → exec .errorReply s = .next (s.answered f .short [])) ∧
     (f.outcome = .badCheck → exec .errorReply s = .next (s.answered f .badCheck [])) ∧
     (f.outcome = .unknown → exec .errorReply s = .next (s.answered f .unknown [f.kind])))

/-! ### Quads and lanes -/

/-- QUAD_PLAN: the checks in order, and the plan stored with the granted widths in the reply. For a joined plan the fit is not checked here. The payload is read field by field, with the granted widths of R2; a reserved bit that is set is refused, but for the lane byte of an absent position, which is ignored. -/
def Obligations.QuadPlanStoresThePlan : Prop :=
  (∀ (s : State) (f : ReceivedFrame) (p : List Byte), s.Asks f .quadPlan p →
     (planOf p = none → exec .quadPlan s = .next (s.answered f .badValue [])) ∧
     (∀ q plan, planOf p = some (q, plan) →
       let fits := plan.joined = true ∨ ∀ (i : LanePos), ∀ l ∈ plan.lanes[i], l.granted * l.wordLength.bits ≤ plan.halfLength
       ((s.quad q).startedPlan ≠ none → exec .quadPlan s = .next (s.answered f .planFixed [])) ∧
       ((s.quad q).startedPlan = none → (∀ i : LanePos, plan.lanes[i] = none) →
         exec .quadPlan s = .next (s.answered f .emptyPlan [])) ∧
       ((s.quad q).startedPlan = none → (∃ i : LanePos, plan.lanes[i] ≠ none) → ¬ fits →
         exec .quadPlan s = .next (s.answered f .badFormat [])) ∧
       ((s.quad q).startedPlan = none → (∃ i : LanePos, plan.lanes[i] ≠ none) → fits →
         exec .quadPlan s = .next { s with
           lane := { s.lane with quads := s.lane.quads.set q (.planned plan) }
           link := s.link.answered f .ok ((List.finRange 4).map fun i =>
             BitVec.ofNat 8 ((plan.lanes[i].map LanePlan.granted).getD 0)) }))) ∧
  ((∀ (p : List Byte) (q : QuadId) (plan : Plan), planOf p = some (q, plan) →
     p.length = 8 ∧ (byteAt p 1).extractLsb' 5 3 = 0 ∧ (byteAt p 3).extractLsb' 2 6 = 0 ∧
     (∀ i : LanePos, (byteAt p 1).getLsbD i.val = true → (byteAt p (4 + i.val)).extractLsb' 2 2 = 0) ∧
     byteOfLetter q = byteAt p 0 ∧ plan.halfLength = (byteAt p 2).toNat ∧
     plan.halfLength ∈ [16, 24, 32, 48, 64, 128] ∧ plan.firstBitDelay = (byteAt p 3).getLsbD 0 ∧
     (plan.polarity = if (byteAt p 3).getLsbD 1 then .leftLow else .leftHigh) ∧
     plan.joined = (byteAt p 1).getLsbD 4 ∧ (plan.joined = true → q = .B) ∧
     (∀ i : LanePos, plan.lanes[i].isSome = (byteAt p 1).getLsbD i.val) ∧
     (∀ (i : LanePos) (l : LanePlan), plan.lanes[i] = some l →
       (l.direction = if (byteAt p (4 + i.val)).getLsbD 7 then .output else .input) ∧
       l.requested = ((byteAt p (4 + i.val)).extractLsb' 4 3).toNat ∧ l.requested ∈ [1, 2, 4] ∧
       l.wordLength.bits = [16, 20, 24, 32].getD ((byteAt p (4 + i.val)).extractLsb' 0 2).toNat 0 ∧
       l.granted = min l.requested (match i with
         | 0 => if plan.lanes[(1 : LanePos)] = none ∧ plan.lanes[(2 : LanePos)] = none ∧ plan.lanes[(3 : LanePos)] = none then 4
                else if plan.lanes[(1 : LanePos)] = none then 2 else 1
         | 1 => 1
         | 2 => if plan.lanes[(3 : LanePos)] = none then 2 else 1
         | 3 => 1))) ∧
   (∀ p : List Byte, p.length = 8 → byteAt p 0 = 0 ∨ (byteAt p 0 = 1) → (byteAt p 1).extractLsb' 5 3 = 0 →
     (byteAt p 0 = 0 → (byteAt p 1).getLsbD 4 = false) → (byteAt p 2).toNat ∈ [16, 24, 32, 48, 64, 128] →
     (byteAt p 3).extractLsb' 2 6 = 0 →
     (∀ i : LanePos, (byteAt p 1).getLsbD i.val = true →
       ((byteAt p (4 + i.val)).extractLsb' 4 3).toNat ∈ [1, 2, 4] ∧ (byteAt p (4 + i.val)).extractLsb' 2 2 = 0) →
     (planOf p).isSome = true))

/-- QUAD_START: an unjoined quad's group goes to ACQUIRING with counter 0 and its mark kept; a joined quad B changes no group; the quad's output channels become FREE. -/
def Obligations.QuadStartStartsTheQuad : Prop :=
  ∀ (s : State) (f : ReceivedFrame) (q : QuadId), s.Asks f .quadStart [byteOfLetter q] →
    (s.quad q = .unplanned → exec .quadStart s = .next (s.answered f .notReady [])) ∧
    ((s.quad q).startedPlan ≠ none → exec .quadStart s = .next (s.answered f .planFixed [])) ∧
    (∀ plan, s.quad q = .planned plan →
      (plan.joined = false → ∃ t, exec .quadStart s = .next t ∧
        t = { s with lane := { t.lane with joinedCapture := s.lane.joinedCapture, joinedDriven := s.lane.joinedDriven },
                     mix := { s.mix with routes := t.mix.routes }, link := (s.link.occur .lock .live).answered f .ok [] } ∧
        t.lane.quads = s.lane.quads.set q (.started plan) ∧
        t.lane.groups = s.lane.groups.set q { s.group q with
          state := .acquiring, count := 0, half := none, goodLeft := false, startDue := false, startMade := false,
          counter := 0, lossTimer := true } ∧
        (∀ c, t.route c = if channelQuad c = q ∧ t.isOutput c = true then .free else s.route c)) ∧
      (plan.joined = true → (s.quad .A).startedPlan = none → exec .quadStart s = .next (s.answered f .notReady [])) ∧
      (∀ planA, plan.joined = true → (s.quad .A).startedPlan = some planA →
        (¬(∀ (i : LanePos), ∀ l ∈ plan.lanes[i], l.granted * l.wordLength.bits ≤ planA.halfLength) →
          exec .quadStart s = .next (s.answered f .badFormat [])) ∧
        ((∀ (i : LanePos), ∀ l ∈ plan.lanes[i], l.granted * l.wordLength.bits ≤ planA.halfLength) →
          ∃ t, exec .quadStart s = .next t ∧
            t = { s with lane := { s.lane with quads := s.lane.quads.set q (.started plan), joinedCapture := false,
                                               joinedDriven := decide ((s.group .A).state ≠ .locked) },
                         mix := { s.mix with routes := t.mix.routes }, link := s.link.answered f .ok [] } ∧
            (∀ c, t.route c = if channelQuad c = q ∧ t.isOutput c = true then .free else s.route c))))

/-- LANE_RETIRE: the lane leaves the plan; an IN lane's crosspoint entries are removed and its buses' counts lowered, each ramp removed lowers its owner's count, and a cue that reaches 0 completes with CUE_DONE, in the order in which the cues reach it; an OUT lane's channels become ABSENT, their owners' counts lowered and their slots discarded. That discarded slots, last words and samples read zero is the model's reading (log 18). The reply is OK. The groups, the passes, the memory port and the fault stack are unchanged. -/
def Obligations.LaneRetireRemovesTheLane : Prop :=
  ∀ (s : State) (f : ReceivedFrame) (q : QuadId) (p : LanePos), s.Asks f .laneRetire [byteOfLetter q, BitVec.ofNat 8 p.val] →
    ((s.quad q).startedPlan = none → exec .laneRetire s = .next (s.answered f .notReady [])) ∧
    (∀ plan, s.quad q = .started plan →
      (plan.lanes[p] = none → exec .laneRetire s = .next (s.answered f .noChannel [])) ∧
      (∀ l, plan.lanes[p] = some l →
        let gone (c : Channel) : Bool := decide (channelQuad c = q ∧ 2 * p.val ≤ channelSlot c ∧ channelSlot c < 2 * p.val + 2 * l.granted)
        ∃ t, exec .laneRetire s = .next t ∧
          t.lane = { s.lane with quads := s.lane.quads.set q (.started { plan with lanes := plan.lanes.set p none }) } ∧
          t.mem = s.mem ∧ t.faults = s.faults ∧ t.pins = s.pins ∧ t.straps = s.straps ∧ t.mix.passes = s.mix.passes ∧
          t.resetHeld = s.resetHeld ∧ t.pending = s.pending ∧ t.free = s.free ∧
          (l.direction = .input →
            t.mix.xp = s.mix.xp.filter (fun e => !gone e.channel) ∧ t.mix.routes = s.mix.routes ∧
            (∀ b, t.bus b = { s.bus b with
              entryCount := (s.bus b).entryCount - (s.mix.xp.filter fun e => gone e.channel && decide (e.bus = b)).length }) ∧
            t.word.outSlot = s.word.outSlot ∧ t.word.lastWord = s.word.lastWord ∧ t.word.settled = s.word.settled ∧
            t.word.previous = s.word.previous ∧ t.word.firstFrame = s.word.firstFrame ∧
            (∀ c : Channel, t.word.capture[c] = (if gone c then ⟨0, 0⟩ else s.word.capture[c]) ∧
              t.word.inSlot[c] = if gone c then 0 else s.word.inSlot[c]) ∧
            (s.TagsDistinct → s.RampCountsExact → s.TableInOrder → ∃ link,
              s.CuesAfterLoss (s.mix.xp.filter fun e => gone e.channel) t.cues link ∧ t.link = link.answered f .ok [])) ∧
          (l.direction = .output →
            t.mix.xp = s.mix.xp ∧ t.cues = s.cues ∧ t.link = s.link.answered f .ok [] ∧
            (∀ c, t.route c = if gone c then .absent else s.route c) ∧
            (∀ b, t.bus b = { s.bus b with
              ownedCount := (s.bus b).ownedCount - (allChannels.filter fun c => gone c && decide (s.route c = .owned b)).length }) ∧
            t.word.inSlot = s.word.inSlot ∧ t.word.capture = s.word.capture ∧
            t.word.firstFrame = s.word.firstFrame ∧
            (∀ c : Channel, t.word.outSlot[c] = (if gone c then ⟨0, false⟩ else s.word.outSlot[c]) ∧
              t.word.lastWord[c] = (if gone c then 0 else s.word.lastWord[c]) ∧
              t.word.settled[c] = (if gone c then 0 else s.word.settled[c]) ∧
              t.word.previous[c] = if gone c then 0 else s.word.previous[c]))))

/-- GROUP_POWER_STANDBY and GROUP_POWER_ACTIVE: STANDBY from any running state, ACQUIRING from STANDBY; no change and OK where the group is already so; NOT_READY in OFF. The counter, the mark, the cues, the tables and the lines are kept; a PULSE mark output goes low on leaving LOCKED; a pass in flight learns that the group left LOCKED. The group's capture registers are emptied; from LOCKED its outputs transmit zero (log 18) and a joined quad B's OUT lanes are driven. GROUP_MARK: the mark value and mode are stored and the mark output is driven low, in every group state. -/
def Obligations.GroupPowerAndMark : Prop :=
  (∀ (s : State) (f : ReceivedFrame) (g : GroupId),
     (s.Asks f .groupPower [byteOfLetter g, 1] →
       ((s.group g).state = .off → exec .groupPowerStandby s = .next (s.answered f .notReady [])) ∧
       ((s.group g).state = .standby → exec .groupPowerStandby s = .next (s.answered f .ok [])) ∧
       ((s.group g).state ≠ .off → (s.group g).state ≠ .standby →
         ∃ t, exec .groupPowerStandby s = .next t ∧
           t = { s with lane := { t.lane with quads := s.lane.quads, joinedCapture := s.lane.joinedCapture }, word := t.word,
                        mix := { s.mix with passes := t.mix.passes }, link := (s.link.occur .lock .live).answered f .ok [] } ∧
           t.lane.groups = s.lane.groups.set g { s.group g with
             state := .standby, count := 0, half := none, goodLeft := false, startDue := false, startMade := false,
             lossTimer := false,
             markOut := (s.group g).markOut && !(decide ((s.group g).state = .locked ∧ (s.group g).markMode = .pulse)) } ∧
           (∀ h, t.pass h = (s.pass h).map fun p =>
             if h = g ∧ (s.group g).state = .locked then { p with leftLocked := true } else p) ∧
           t.word.inSlot = s.word.inSlot ∧ t.word.outSlot = s.word.outSlot ∧ t.word.lastWord = s.word.lastWord ∧
           t.word.firstFrame = s.word.firstFrame ∧
           (∀ c : Channel, s.isInputOf g c = true → t.word.capture[c].count = 0) ∧ s.HaltsLanes g t)) ∧
     (s.Asks f .groupPower [byteOfLetter g, 0] →
       ((s.group g).state = .off → exec .groupPowerActive s = .next (s.answered f .notReady [])) ∧
       ((s.group g).state ≠ .off → (s.group g).state ≠ .standby → exec .groupPowerActive s = .next (s.answered f .ok [])) ∧
       ((s.group g).state = .standby → exec .groupPowerActive s = .next { s with
         lane := { s.lane with groups := s.lane.groups.set g { s.group g with
           state := .acquiring, count := 0, half := none, goodLeft := false, startDue := false, startMade := false, lossTimer := true } }
         link := (s.link.occur .lock .live).answered f .ok [] }))) ∧
  (∀ (s : State) (f : ReceivedFrame) (g : GroupId) (value : FrameNo) (mode : MarkMode),
     s.Asks f .groupMark ([byteOfLetter g] ++ bytes32 value ++ [mode.code]) →
     exec .groupMark s = .next { s with
       lane := { s.lane with groups := s.lane.groups.set g { s.group g with mark := value, markMode := mode, markOut := false } }
       link := s.link.answered f .ok [] })

/-! ### Word-select edges, the loss timer, frame starts and words -/

/-- WORD_SELECT_EDGE in ACQUIRING: the first edge begins a half-frame; a later one judges the half-frame it ends, counts good frames, and at the second consecutive one enters LOCKED with the output side cleared, transmitting what it did. The capture registers of the side that begins are emptied, and a left half-frame of group A begins the capture of a joined quad B. No frame arrives, and the rest of the group's record is kept. -/
def Obligations.AcquisitionCountsGoodFrames : Prop :=
  ∀ (s : State) (g : GroupId) (high : Bool) (length : Nat) (plan : Plan),
    (s.quad g).startedPlan = some plan → (s.group g).state = .acquiring →
    (∀ h ∈ (s.group g).half, h.side ≠ plan.polarity.side high ∧ h.length ≤ length) →
    ∃ t, exec (.wordSelectEdge g high length) s = .next t ∧
      t = { s with lane := { t.lane with quads := s.lane.quads, joinedDriven := s.lane.joinedDriven }, word := t.word, link := t.link } ∧
      t.word = { s.word with capture := t.word.capture, outSlot := t.word.outSlot, lastWord := t.word.lastWord,
                             firstFrame := t.word.firstFrame } ∧
      s.BeginsHalf g (plan.polarity.side high) t ∧
      t.lane.groups = s.lane.groups.set g { s.group g with
        state := (t.group g).state, count := (t.group g).count, goodLeft := (t.group g).goodLeft
        half := some { side := plan.polarity.side high, length := 0 } } ∧
      (t.group g).half = some { side := plan.polarity.side high, length := 0 } ∧
      (t.group g).counter = (s.group g).counter ∧ (t.group g).mark = (s.group g).mark ∧
      (t.group g).markOut = (s.group g).markOut ∧ (t.group g).lossTimer = (s.group g).lossTimer ∧
      (∀ h, h ≠ g → t.group h = s.group h) ∧ t.word.inSlot = s.word.inSlot ∧
      (∀ h ∈ (s.group g).half, h.side = .right → length = plan.halfLength → (s.group g).goodLeft = true → 1 ≤ (s.group g).count →
        (t.group g).state = .locked ∧ (t.group g).count = 0 ∧ (t.group g).goodLeft = false ∧
        t.word.firstFrame = s.word.firstFrame.set g true ∧ t.word.firstFrame.get g = true ∧
        t.link = s.link.occur .lock .live ∧
        (∀ c : Channel, s.isOutputOf g c = true → t.word.outSlot[c] = ⟨0, false⟩ ∧ t.word.lastWord[c] = 0) ∧
        (∀ c : Channel, s.isOutputOf g c = false →
          t.word.outSlot[c] = s.word.outSlot[c] ∧ t.word.lastWord[c] = s.word.lastWord[c])) ∧
      ((∀ h ∈ (s.group g).half, ¬(h.side = .right ∧ length = plan.halfLength ∧ (s.group g).goodLeft = true ∧ 1 ≤ (s.group g).count)) →
        (t.group g).state = .acquiring ∧ t.link = s.link ∧ t.word.outSlot = s.word.outSlot ∧ t.word.lastWord = s.word.lastWord ∧
        t.word.firstFrame = s.word.firstFrame ∧
        ((s.group g).half = none → (t.group g).count = (s.group g).count ∧ (t.group g).goodLeft = (s.group g).goodLeft) ∧
        (∀ h ∈ (s.group g).half,
          (length ≠ plan.halfLength → (t.group g).count = 0 ∧ (t.group g).goodLeft = false) ∧
          (length = plan.halfLength → h.side = .left → (t.group g).count = (s.group g).count ∧ (t.group g).goodLeft = true) ∧
          (length = plan.halfLength → h.side = .right → (s.group g).goodLeft = true →
            (t.group g).count = (s.group g).count + 1 ∧ (t.group g).goodLeft = false) ∧
          (length = plan.halfLength → h.side = .right → (s.group g).goodLeft = false →
            (t.group g).count = (s.group g).count ∧ (t.group g).goodLeft = false)))

/-- The edge that ends a good frame in LOCKED: the counter advances, the mark is compared with its new value, and the mix engine begins a pass with the frame record and the group's buses, or, with the group's pass in flight, pushes LATE_PASS. With a first-bit delay of 1 the frame start falls at the same edge: where FRAME_START came before the edge it is made first, under the counter's new value, and otherwise it is still to come (the model's choice, logs 7 and 30). The left half-frame that begins empties its capture registers, and in group A begins the capture of a joined quad B. -/
def Obligations.FrameArrivalBeginsAPass : Prop :=
  ∀ (s : State) (g : GroupId) (high : Bool) (plan : Plan) (h : HalfFrame),
    (s.quad g).startedPlan = some plan → (s.group g).state = .locked → (s.group g).half = some h → h.side = .right →
    (s.group g).goodLeft = true → plan.polarity.side high = .left → h.length ≤ plan.halfLength →
    let n := (s.group g).counter + 1
    let u : State := if plan.firstBitDelay = true ∧ (s.group g).startMade = true then s.frameStartLocked g n else s
    ∃ t, exec (.wordSelectEdge g high plan.halfLength) s = .next t ∧
      t = { s with lane := { t.lane with quads := s.lane.quads, joinedDriven := u.lane.joinedDriven },
                   word := { u.word with capture := t.word.capture },
                   mix := { s.mix with passes := t.mix.passes }, link := t.link, faults := t.faults } ∧
      s.BeginsHalf g .left t ∧
      t.lane.groups = s.lane.groups.set g { s.group g with
        counter := n, goodLeft := false, startMade := false, startDue := plan.firstBitDelay && !(s.group g).startMade
        half := some { side := .left, length := 0 }
        markOut := if n = (s.group g).mark then true
          else if (s.group g).markMode = .pulse then false else (s.group g).markOut } ∧
      (t.group g).state = .locked ∧ (t.group g).goodLeft = false ∧ (t.group g).startMade = false ∧ (t.group g).counter = n ∧ (t.group g).half = some { side := .left, length := 0 } ∧
      (t.group g).mark = (s.group g).mark ∧ (t.group g).startDue = (plan.firstBitDelay && !(s.group g).startMade) ∧
      ((t.group g).markOut = if n = (s.group g).mark then true
        else if (s.group g).markMode = .pulse then false else (s.group g).markOut) ∧
      (∀ o, o ≠ g → t.group o = s.group o ∧ t.pass o = s.pass o) ∧
      (let l := if n = (s.group g).mark then u.link.occur .mark (.mark (match g with | .A => 1 | .B => 2)) else u.link
       (s.pass g = none → t.faults = u.faults ∧ t.link = l ∧
        ∃ p, t.pass g = some p ∧ p.frame = n ∧ p.outstanding = [] ∧ p.leftLocked = false ∧ p.stage = .cueStart ∧ p.wait = none ∧
          p.samples = (allChannels.filter fun c => s.isInputOf g c &&
            (decide (channelQuad c = g) || s.lane.joinedCapture)).map (fun c => (c, s.word.inSlot[c])) ∧
          p.buses.map PassBus.bus = allBuses.filter (fun b => decide ((s.bus b).group = some g)) ∧
          (∀ i ∈ p.buses, i.rounding = (s.bus i.bus).rounding ∧ i.overflow = (s.bus i.bus).overflow ∧
            i.terms = [] ∧ i.progress = .waiting)) ∧
       (∀ p, s.pass g = some p → t.pass g = some p ∧ t.link = l.occur .fault .live ∧
        t.faults = (u.pushFault { FaultRecord.of .latePass g n with address := p.outstanding.head?.map Prod.fst }).faults))

/-- WORD_SELECT_EDGE elsewhere: a bad half-frame in LOCKED is a slip, the first edge in LOST begins an acquisition, a good left half-frame in LOCKED awaits its right one, and OFF, STANDBY and a quad that is not STARTED ignore the pin. An edge that begins a half-frame empties the capture registers of its side, and a left one of group A begins the capture of a joined quad B. A slip empties the group's capture registers, has its outputs transmit zero (log 18), drives a joined quad B's OUT lanes, and keeps the rest of the word path. -/
def Obligations.SlipsAndLostEdges : Prop :=
  (∀ (s : State) (g : GroupId) (high : Bool) (length : Nat), (s.quad g).startedPlan = none →
    exec (.wordSelectEdge g high length) s = .next s) ∧
  ∀ (s : State) (g : GroupId) (high : Bool) (length : Nat) (plan : Plan), (s.quad g).startedPlan = some plan →
    ((s.group g).state = .off ∨ (s.group g).state = .standby → exec (.wordSelectEdge g high length) s = .next s) ∧
    ((s.group g).state = .lost → ∃ t, exec (.wordSelectEdge g high length) s = .next t ∧
      t = { s with lane := { t.lane with quads := s.lane.quads, joinedDriven := s.lane.joinedDriven },
                   word := { s.word with capture := t.word.capture }, link := s.link.occur .lock .live } ∧
      t.lane.groups = s.lane.groups.set g { s.group g with
        state := .acquiring, count := 0, half := some { side := plan.polarity.side high, length := 0 }, goodLeft := false,
        startDue := false, startMade := false, lossTimer := true } ∧
      s.BeginsHalf g (plan.polarity.side high) t) ∧
    (∀ h, (s.group g).state = .locked → (s.group g).half = some h → h.side ≠ plan.polarity.side high → h.length ≤ length →
      (length ≠ plan.halfLength → ∃ t, exec (.wordSelectEdge g high length) s = .next t ∧
        t = { s with lane := { t.lane with quads := s.lane.quads, joinedCapture := s.lane.joinedCapture }, word := t.word,
                     mix := { s.mix with passes := t.mix.passes }, link := (s.link.occur .fault .live).occur .lock .live,
                     faults := t.faults } ∧
        t.faults = (s.pushFault (FaultRecord.of .slip g (s.group g).counter)).faults ∧
        t.lane.groups = s.lane.groups.set g { s.group g with
          state := .lost, count := 0, half := none, goodLeft := false, startDue := false, startMade := false, lossTimer := false,
          markOut := (s.group g).markOut && !(decide ((s.group g).markMode = .pulse)) } ∧
        (∀ o, t.pass o = (s.pass o).map fun p => if o = g then { p with leftLocked := true } else p) ∧
        t.word.inSlot = s.word.inSlot ∧ t.word.outSlot = s.word.outSlot ∧ t.word.lastWord = s.word.lastWord ∧ s.HaltsLanes g t) ∧
      (length = plan.halfLength → h.side = .left → ∃ t, exec (.wordSelectEdge g high length) s = .next t ∧
        t = { s with lane := { t.lane with quads := s.lane.quads, joinedDriven := s.lane.joinedDriven },
                     word := { s.word with capture := t.word.capture } } ∧
        t.lane.groups = s.lane.groups.set g { s.group g with
          goodLeft := true, startDue := false, half := some { side := .right, length := 0 } } ∧
        s.BeginsHalf g .right t))

/-- LOSS_TIMER_EXPIRY: CLOCK_LOSS and LOST from LOCKED; in ACQUIRING the count and the half-frame in progress are given up and no fault is pushed; a stopped timer does not expire. From LOCKED the group's capture registers are emptied, its outputs transmit zero (log 18), a joined quad B's OUT lanes are driven, and the rest of the word path is kept. -/
def Obligations.LossTimerExpires : Prop :=
  ∀ (s : State) (g : GroupId),
    ((s.group g).lossTimer = false → exec (.lossTimerExpiry g) s = .next s) ∧
    ((s.group g).lossTimer = true → (s.group g).state = .acquiring →
      exec (.lossTimerExpiry g) s = .next { s with lane := { s.lane with groups := s.lane.groups.set g { s.group g with
        count := 0, half := none, goodLeft := false } } }) ∧
    ((s.group g).lossTimer = true → (s.group g).state = .locked → ∃ t, exec (.lossTimerExpiry g) s = .next t ∧
      t = { s with lane := { t.lane with quads := s.lane.quads, joinedCapture := s.lane.joinedCapture }, word := t.word,
                   mix := { s.mix with passes := t.mix.passes }, link := (s.link.occur .fault .live).occur .lock .live,
                   faults := t.faults } ∧
      t.faults = (s.pushFault (FaultRecord.of .clockLoss g (s.group g).counter)).faults ∧
      t.lane.groups = s.lane.groups.set g { s.group g with
        state := .lost, count := 0, half := none, goodLeft := false, startDue := false, startMade := false, lossTimer := false,
        markOut := (s.group g).markOut && !(decide ((s.group g).markMode = .pulse)) } ∧
      (∀ o, t.pass o = (s.pass o).map fun p => if o = g then { p with leftLocked := true } else p) ∧
      t.word.inSlot = s.word.inSlot ∧ t.word.outSlot = s.word.outSlot ∧ t.word.lastWord = s.word.lastWord ∧ s.HaltsLanes g t)

/-- FRAME_START. Outside LOCKED it settles nothing. In LOCKED, after the arrival of the frame it ends (first-bit delay 1) it makes the frame start under the counter as it stands; in the right half-frame after a good left one, with a delay of 0 it makes the frame start under the counter plus one, and with a delay of 1 it leaves it to be made first at the edge (the model's reading and choice, log 7); elsewhere nothing happens. A frame start in LOCKED: an OWNED channel transmits its fresh value or repeats its last word, another transmits zero and its discarded slot holds 0 (the model's choice, log 27), and the first repeat pushes one UNDERRUN; the first frame start after lock transmits zero everywhere and pushes none. -/
def Obligations.FrameStartSettlesTheOutputs : Prop :=
  (∀ (s : State) (g : GroupId), (s.group g).state ≠ .locked → exec (.frameStart g) s = .next s) ∧
  (∀ (s : State) (g : GroupId) (plan : Plan), (s.quad g).startedPlan = some plan → (s.group g).state = .locked →
    let write (G : ClockGroup) : State := { s with lane := { s.lane with groups := s.lane.groups.set g G } }
    let early (h : HalfFrame) := h.side = .right ∧ (s.group g).goodLeft = true ∧ (s.group g).startMade = false
    ((s.group g).startDue = true → exec (.frameStart g) s =
      .next ((write { s.group g with startDue := false }).frameStartLocked g (s.group g).counter)) ∧
    (∀ h, (s.group g).startDue = false → (s.group g).half = some h → early h →
      (plan.firstBitDelay = false → exec (.frameStart g) s =
        .next ((write { s.group g with startMade := true, half := some { side := .right, length := plan.halfLength } }).frameStartLocked g
          ((s.group g).counter + 1))) ∧
      (plan.firstBitDelay = true → exec (.frameStart g) s = .next (write { s.group g with startMade := true }))) ∧
    ((s.group g).startDue = false → (∀ h ∈ (s.group g).half, ¬ early h) → exec (.frameStart g) s = .next s)) ∧
  ∀ (s : State) (g : GroupId) (n : FrameNo),
    let t := s.frameStartLocked g n
    let repeats (c : Channel) : Bool := s.isOutputOf g c && (s.route c).owner.isSome && !s.word.outSlot[c].fresh
    t = { s with lane := { s.lane with joinedDriven := s.lane.joinedDriven || (decide (g = .A) && s.bJoined) },
                 word := { t.word with capture := s.word.capture, inSlot := s.word.inSlot }, link := t.link, faults := t.faults } ∧
    (∀ o, t.word.firstFrame.get o = if o = g then false else s.word.firstFrame.get o) ∧
    (∀ c : Channel, s.isOutputOf g c = false →
      t.word.settled[c] = s.word.settled[c] ∧ t.word.previous[c] = s.word.previous[c] ∧
      t.word.lastWord[c] = s.word.lastWord[c] ∧ t.word.outSlot[c] = s.word.outSlot[c]) ∧
    (∀ c : Channel, s.isOutputOf g c = true → t.word.previous[c] = s.word.settled[c]) ∧
    (s.word.firstFrame.get g = true → t.faults = s.faults ∧ t.link = s.link ∧
      ∀ c : Channel, s.isOutputOf g c = true →
        t.word.settled[c] = 0 ∧ t.word.lastWord[c] = 0 ∧ t.word.outSlot[c].fresh = false) ∧
    (s.word.firstFrame.get g = false →
      (∀ c : Channel, s.isOutputOf g c = true →
        t.word.outSlot[c].fresh = false ∧
        (∀ b, s.route c = .owned b → s.word.outSlot[c].fresh = true →
          t.word.settled[c] = s.word.outSlot[c].value ∧ t.word.lastWord[c] = s.word.outSlot[c].value) ∧
        (∀ b, s.route c = .owned b → s.word.outSlot[c].fresh = false →
          t.word.settled[c] = s.word.lastWord[c] ∧ t.word.lastWord[c] = s.word.lastWord[c]) ∧
        ((s.route c).owner = none → t.word.settled[c] = 0 ∧ t.word.lastWord[c] = 0 ∧ t.word.outSlot[c].value = 0)) ∧
      ((∀ c, repeats c = false) → t.faults = s.faults ∧ t.link = s.link) ∧
      (∀ c, repeats c = true → (∀ d, d < c → repeats d = false) →
        t.faults = (s.pushFault { FaultRecord.of .underrun g n with channel := some c }).faults ∧
        t.link = s.link.occur .fault .live))

/-- WORD_COMPLETE of an input channel whose half-frame is in progress, and whose word has not yet been gathered in it: the capture register holds the word's bits and the input slot its sample, and the half-frame has lasted at least up to the word's last bit (the model's choice, log 5). In OFF, LOST and STANDBY no word is captured, nor is that of a channel that is no input, nor a second one in one half-frame (log 5). The conversions between line words and samples, as signed numbers: 16 and 20 bits are scaled by 256 and 16, 24 bits are the sample, and 32 bits drop or add 8 low bits; narrowing truncates toward minus infinity. -/
def Obligations.WordsAreCapturedAndConverted : Prop :=
  (∀ (s : State) (c : Channel) (bits : BitVec 32),
    (s.group (s.groupOfChannel c)).state ∈ [GroupState.off, .lost, .standby] → exec (.wordComplete c bits) s = .next s) ∧
  (∀ (s : State) (c : Channel) (bits : BitVec 32) (plan : Plan) (p : LanePos) (l : LanePlan) (h : HalfFrame),
     let g := s.groupOfChannel c
     (s.quad g).startedPlan = some plan → s.channelLane c = some (p, l) → l.direction = .input →
     (s.group g).state = .acquiring ∨ (s.group g).state = .locked → (s.group g).half = some h →
     h.side = channelSide c → (channelQuad c = g ∨ s.lane.joinedCapture = true) → s.word.capture[c].count = 0 →
     let len := l.wordLength.bits
     let stop := (if plan.firstBitDelay then 1 else 0) + ((channelSlot c - 2 * p.val) / 2 + 1) * len
     exec (.wordComplete c bits) s = .next { s with
       lane := { s.lane with groups := s.lane.groups.set g { s.group g with
         half := some { side := h.side, length := max h.length (min stop plan.halfLength) } } }
       word := { s.word with
         capture := s.word.capture.set c { count := len, bits := (bits.setWidth len).setWidth 32 }
         inSlot := s.word.inSlot.set c (sampleOfWord l.wordLength bits) } }) ∧
  (∀ (s : State) (c : Channel) (bits : BitVec 32), s.word.capture[c].count ≠ 0 ∨ s.isInput c = false →
     exec (.wordComplete c bits) s = .next s) ∧
  (∀ (w : BitVec 32) (x : Sample),
     (sampleOfWord .w16 w).toInt = (w.setWidth 16).toInt * 256 ∧
     (sampleOfWord .w20 w).toInt = (w.setWidth 20).toInt * 16 ∧
     sampleOfWord .w24 w = w.setWidth 24 ∧
     (sampleOfWord .w32 w).toInt = w.toInt / 256 ∧
     ((wordOfSample .w16 x).setWidth 16).toInt = x.toInt / 256 ∧
     ((wordOfSample .w20 x).setWidth 20).toInt = x.toInt / 16 ∧
     wordOfSample .w24 x = x.setWidth 32 ∧
     (wordOfSample .w32 x).toInt = x.toInt * 256 ∧
     wordOfSample .w16 (sampleOfWord .w16 w) = (w.setWidth 16).setWidth 32)

/-! ### Buses, crosspoints and routes -/

/-- BUS_SET writes the three settings; another group is refused IN_USE while any of the bus's counts is not 0. CLIP_CLEAR clears the clip flags the mask names and replies with those that were set; a pending CLIP notice is unchanged. -/
def Obligations.BusSettingsAndClipFlags : Prop :=
  (∀ (s : State) (f : ReceivedFrame) (b : BusId) (group : Option GroupId) (r : Rounding) (o : Overflow),
     s.Asks f .busSet [BitVec.ofNat 8 b.val, byteOfBusGroup group, r.code, o.code] →
     let free := (s.bus b).entryCount = 0 ∧ (s.bus b).ownedCount = 0 ∧ (s.bus b).holdCount = 0
     (group ≠ (s.bus b).group → ¬ free → exec .busSet s = .next (s.answered f .inUse [])) ∧
     (group = (s.bus b).group ∨ free → exec .busSet s = .next { s with
       mix := { s.mix with buses := s.mix.buses.set b { s.bus b with group := group, rounding := r, overflow := o } }
       link := s.link.answered f .ok [] })) ∧
  (∀ (s : State) (f : ReceivedFrame) (mask : BitVec 16), s.Asks f .clipClear (bytes16 mask) →
     ∃ (t : State) (cleared : BitVec 16), exec .clipClear s = .next t ∧
       t = { s with mix := { s.mix with buses := t.mix.buses }, link := s.link.answered f .ok (bytes16 cleared) } ∧
       ∀ b : BusId, t.bus b = { s.bus b with clip := (s.bus b).clip && !mask.getLsbD b.val } ∧
         cleared.getLsbD b.val = ((s.bus b).clip && mask.getLsbD b.val))

/-- BUS_READ returns the record as it stands and changes no state; a bus outside 0 to 15 is refused (R44). -/
def Obligations.BusReadReturnsTheRecord : Prop :=
  ∀ (s : State) (f : ReceivedFrame) (x : Byte), s.Asks f .busRead [x] →
    (∀ b : BusId, x = BitVec.ofNat 8 b.val →
      exec .busRead s = .next (s.answered f .ok
        [byteOfBusGroup (s.bus b).group, (s.bus b).rounding.code, (s.bus b).overflow.code, if (s.bus b).clip then 1 else 0,
         BitVec.ofNat 8 (s.bus b).entryCount, BitVec.ofNat 8 (s.bus b).ownedCount, BitVec.ofNat 8 (s.bus b).holdCount,
         if s.line b ≠ none then 1 else 0])) ∧
    (16 ≤ x.toNat → exec .busRead s = .next (s.answered f .badValue []))

/-- ROUTE_READ returns the route table, three bytes a channel, and changes no state (R58). -/
def Obligations.RouteReadReturnsTheTable : Prop :=
  ∀ (s : State) (f : ReceivedFrame) (p : List Byte), s.Asks f .routeRead p →
    (p = [] → exec .routeRead s = .next (s.answered f .ok ((List.finRange 16).flatMap fun c =>
      match s.route c with
      | .absent => [0, 0, 0]
      | .free => [1, 0, 0]
      | .owned b => [2, BitVec.ofNat 8 b.val, 0]
      | .clashed b c => [3, BitVec.ofNat 8 b.val, BitVec.ofNat 8 c.val]))) ∧
    (p ≠ [] → exec .routeRead s = .next (s.answered f .badValue []))

/-- ROUTE_CLEAR frees an OWNED or CLASHED channel at once and replies with the entry as it stood; the owner's count goes down by one; nothing else changes. A channel outside A0 to B7 is refused BAD_VALUE, an ABSENT one NO_CHANNEL (R56). -/
def Obligations.RouteClearFreesTheChannel : Prop :=
  ∀ (s : State) (f : ReceivedFrame) (x : Byte), s.Asks f .routeClear [x] →
    (16 ≤ x.toNat → exec .routeClear s = .next (s.answered f .badValue [])) ∧
    ∀ c : Channel, x = BitVec.ofNat 8 c.val →
    (s.route c = .absent → exec .routeClear s = .next (s.answered f .noChannel [])) ∧
    (s.route c ≠ .absent → ∃ t, exec .routeClear s = .next t ∧
      t = { s with
        mix := { s.mix with routes := s.mix.routes.set c .free, buses := t.mix.buses }
        link := s.link.answered f .ok (match s.route c with
          | .absent => [0, 0, 0]
          | .free => [1, 0, 0]
          | .owned b => [2, BitVec.ofNat 8 b.val, 0]
          | .clashed b d => [3, BitVec.ofNat 8 b.val, BitVec.ofNat 8 d.val]) } ∧
      ∀ b, t.bus b = if s.route c = .owned b then { s.bus b with ownedCount := (s.bus b).ownedCount - 1 } else s.bus b)

/-- GROUP_READ, XP_READ, CUE_READ, LINE_READ and PIN_READ report and change no state. An entry of XP READ is 16 bytes: channel, state, gain, then start, target, length, passes elapsed and owner of its ramp, zero in STEADY. A cue of CUE READ is 10 bytes: tag, flags (bit 0 group B, bit 1 APPLYING, bit 2 armed, bits 4 and 5 the trigger kind), trigger argument, ramp length, ramps outstanding and number of edits. PIN READ gives for GP3 while taken the level of ATTN1 (R170; the open-drain line itself: log 19). -/
def Obligations.ReadsReportAndChangeNothing : Prop :=
  ∀ (s : State) (f : ReceivedFrame),
    let rampFields (r : Ramp) : List Byte := bytes24 r.start ++ bytes24 r.target ++ num16 r.length ++ num16 r.elapsed ++ [r.owner]
    let entryBytes (e : Entry) : List Byte := [BitVec.ofNat 8 e.channel.val] ++ (match e.state with
      | .steady => [0] ++ bytes24 e.gain ++ [0, 0, 0, 0, 0, 0, 0, 0, 0, 0, 0]
      | .ramping r => [1] ++ bytes24 e.gain ++ rampFields r
      | .fading r => [2] ++ bytes24 e.gain ++ rampFields r)
    let cueBytes (c : Cue) : List Byte :=
      [c.tag, (0 : BitVec 2) ++ (match c.trigger with | .atFrame _ => 0 | .next => 1 | .pin _ => 2 | .after _ => (3 : BitVec 2)) ++ (0 : BitVec 1)
        ++ BitVec.ofBool c.armed ++ BitVec.ofBool (decide (c.state = .applying)) ++ BitVec.ofBool (decide (c.group = .B))] ++
      (match c.trigger with
        | .atFrame n => bytes32 n | .next => [0, 0, 0, 0] | .pin k => [0, 0, 0, BitVec.ofNat 8 k.val] | .after x => [0, 0, 0, x]) ++
      num16 c.rampLength ++ [BitVec.ofNat 8 c.outstanding, BitVec.ofNat 8 c.edits.length]
    (∀ g, s.Asks f .groupRead [byteOfLetter g] → exec .groupRead s = .next (s.answered f .ok
      ([(s.group g).state.code] ++ bytes32 (s.group g).counter ++ bytes32 (s.group g).mark ++ [(s.group g).markMode.code]))) ∧
    (∀ (b : BusId) (c : Channel), s.Asks f .xpRead [BitVec.ofNat 8 b.val, BitVec.ofNat 8 c.val] →
      let es := s.mix.xp.filter fun e => decide (e.bus = b ∧ c ≤ e.channel)
      exec .xpRead s = .next (s.answered f .ok
        ([BitVec.ofNat 8 b.val, BitVec.ofNat 8 (s.bus b).entryCount, BitVec.ofNat 8 (min 3 es.length), if 3 < es.length then 1 else 0]
          ++ (es.take 3).flatMap entryBytes)) ∧
      (s.TableInOrder → es.Pairwise fun x y => x.channel < y.channel)) ∧
    (∀ k : Fin 24, s.Asks f .cueRead [BitVec.ofNat 8 k.val] →
      let cs := s.cues.drop k.val
      exec .cueRead s = .next (s.answered f .ok
        ([BitVec.ofNat 8 s.cues.length, BitVec.ofNat 8 (128 - s.poolUsed), BitVec.ofNat 8 (min 5 cs.length), if 5 < cs.length then 1 else 0]
          ++ (cs.take 5).flatMap cueBytes))) ∧
    (∀ x : Byte, s.Asks f .cueRead [x] → 24 ≤ x.toNat → exec .cueRead s = .next (s.answered f .badValue [])) ∧
    (∀ b : BusId, s.Asks f .lineRead [BitVec.ofNat 8 b.val] →
      (s.line b = none → exec .lineRead s = .next (s.answered f .noLine [])) ∧
      (∀ l, s.line b = some l → exec .lineRead s = .next (s.answered f .ok
        (num24 l.base ++ num24 l.length ++ num16 l.writeIndex ++ num16 l.delay ++
          (match l.state with | .clearing p => [0] ++ num16 p | .active => [1, 0, 0]))))) ∧
    (let item (k : PinId) : List Byte :=
       [if (if s.link.twoLine = true ∧ k = 3 then s.attn1 else s.pinLevel k) then 1 else 0, s.pins[k].role.code, if s.pins[k].openDrain then 1 else 0,
        if s.pins[k].report then 1 else 0, if s.link.twoLine = true ∧ k = 3 then 1 else 0]
     s.Asks f .pinRead [] → exec .pinRead s = .next (s.answered f .ok (item 0 ++ item 1 ++ item 2 ++ item 3)))

/-! ### The cue list -/

/-- CUE_POST: the seven checks in order, and the admission of a cue that passes them all: it is appended as WAITING, its edits enter the pool, and the reply counts cues and free records. The conditions of CUE_POST's check 5 on one edit, in order. The payload of every cue that can be posted is read back as that cue, and a payload is well formed exactly when its length is that of 1 to 8 edits, its group, trigger kind, pin, edit kinds, channels and buses are codes, its ramp length is at most 4095 and its unused argument fields are zero. -/
def Obligations.CuePostChecksAndAdmits : Prop :=
  (∀ (s : State) (f : ReceivedFrame) (p : List Byte), s.Asks f .cuePost p →
     (cueOf p = none → exec .cuePost s = .next (s.answered f .badValue [])) ∧
     (∀ c, cueOf p = some c →
       let known := ∃ d ∈ s.cues, d.tag = c.tag
       let runs := (s.group c.group).state ≠ .off
       let pinOk := ∀ k, c.trigger = .pin k →
         (s.pins[k].role = .triggerRise ∨ s.pins[k].role = .triggerFall) ∧ ¬(s.link.twoLine = true ∧ k = 3)
       let afterOk := ∀ t, c.trigger = .after t → ∃ d ∈ s.cues, d.tag = t ∧ d.group = c.group
       (known → exec .cuePost s = .next (s.answered f .dupTag [])) ∧
       (¬ known → ¬ runs → exec .cuePost s = .next (s.answered f .notReady [])) ∧
       (¬ known → runs → ¬ pinOk → exec .cuePost s = .next (s.answered f .pinRole [])) ∧
       (¬ known → runs → ¬ afterOk → exec .cuePost s = .next (s.answered f .noSuchCue [])) ∧
       (¬ known → runs → pinOk → afterOk →
         (∀ (i : Nat) (e : Edit) (st : Status), c.edits[i]? = some e → s.checkEdit c.group e = some st →
           (∀ j, j < i → ∀ d ∈ c.edits[j]?, s.checkEdit c.group d = none) →
           exec .cuePost s = .next (s.answered f st [BitVec.ofNat 8 (i + 1)])) ∧
         ((∀ e ∈ c.edits, s.checkEdit c.group e = none) →
           (24 ≤ s.cues.length → exec .cuePost s = .next (s.answered f .listFull [])) ∧
           (s.cues.length < 24 → 128 < s.poolUsed + c.edits.length → exec .cuePost s = .next (s.answered f .poolFull [])) ∧
           (s.cues.length < 24 → s.poolUsed + c.edits.length ≤ 128 → ∃ t, exec .cuePost s = .next t ∧
             t = { s with
               cues := s.cues ++ [c]
               mix := { s.mix with buses := t.mix.buses }
               link := s.link.answered f .ok
                 [BitVec.ofNat 8 (s.cues.length + 1), BitVec.ofNat 8 (128 - (s.poolUsed + c.edits.length))] } ∧
             c.state = .waiting ∧ c.armed = false ∧ c.deferred = false ∧ c.outstanding = 0 ∧
             ∀ b, t.bus b = { s.bus b with
               holdCount := (s.bus b).holdCount + (c.edits.filter fun e => decide (e.bus = b)).length }))))) ∧
  (∀ (s : State) (g : GroupId) (e : Edit),
     let channelOk := match e with
       | .gain c _ _ => s.isInput c = true
       | .drop c _ => s.isInput c = true
       | .route c _ => s.route c ≠ .absent
       | .unroute c _ => s.route c ≠ .absent
       | .delay _ _ => True
     let groupOk := (s.bus e.bus).group = some g ∧ ∀ c ∈ e.channel, s.groupOfChannel c = g
     (¬ channelOk → s.checkEdit g e = some .noChannel) ∧
     (channelOk → ¬ groupOk → s.checkEdit g e = some .wrongGroup) ∧
     (channelOk → groupOk → (∀ b d, e ≠ .delay b d) → s.checkEdit g e = none) ∧
     (∀ b d, e = .delay b d → groupOk →
       (s.line b = none → s.checkEdit g e = some .noLine) ∧
       (∀ l, s.line b = some l → l.length ≤ d → s.checkEdit g e = some .badValue) ∧
       (∀ l, s.line b = some l → d < l.length → s.checkEdit g e = none))) ∧
  (∀ c : Cue,
     let edit (e : Edit) : List Byte := match e with
       | .gain ch b target => [1, BitVec.ofNat 8 ch.val, BitVec.ofNat 8 b.val] ++ bytes24 target
       | .drop ch b => [2, BitVec.ofNat 8 ch.val, BitVec.ofNat 8 b.val, 0, 0, 0]
       | .route ch b => [3, BitVec.ofNat 8 ch.val, BitVec.ofNat 8 b.val, 0, 0, 0]
       | .unroute ch b => [4, BitVec.ofNat 8 ch.val, BitVec.ofNat 8 b.val, 0, 0, 0]
       | .delay b d => [5, 0, BitVec.ofNat 8 b.val] ++ bytes24 (BitVec.ofNat 24 d)
     let trigger : List Byte := match c.trigger with
       | .atFrame n => [0] ++ bytes32 n
       | .next => [1, 0, 0, 0, 0]
       | .pin k => [2, 0, 0, 0, BitVec.ofNat 8 k.val]
       | .after t => [3, 0, 0, 0, t]
     c.state = .waiting → c.armed = false → c.deferred = false → c.outstanding = 0 → c.rampLength ≤ 4095 →
     1 ≤ c.edits.length → c.edits.length ≤ 8 → (∀ b d, Edit.delay b d ∈ c.edits → d < 2 ^ 24) →
     cueOf ([c.tag, byteOfLetter c.group] ++ trigger ++ bytes16 (BitVec.ofNat 16 c.rampLength) ++ [BitVec.ofNat 8 c.edits.length]
       ++ c.edits.flatMap edit) = some c) ∧
  (∀ p : List Byte,
     let count := (byteAt p 9).toNat
     let kind := (byteAt p 2).toNat
     let zero (i n : Nat) := ∀ k, k < n → byteAt p (i + k) = 0
     (cueOf p).isSome = true ↔
       (1 ≤ count ∧ count ≤ 8 ∧ p.length = 10 + 6 * count ∧ (byteAt p 1).toNat < 2 ∧
        (byteAt p 7).toNat * 256 + (byteAt p 8).toNat ≤ 4095 ∧
        kind < 4 ∧ (kind = 1 → zero 3 4) ∧ (kind = 2 → zero 3 3 ∧ (byteAt p 6).toNat < 4) ∧ (kind = 3 → zero 3 3) ∧
        ∀ i, i < count →
          let at_ := 10 + 6 * i
          let edit := (byteAt p at_).toNat
          1 ≤ edit ∧ edit ≤ 5 ∧ (byteAt p (at_ + 2)).toNat < 16 ∧ (edit ≤ 4 → (byteAt p (at_ + 1)).toNat < 16) ∧
          (edit = 2 ∨ edit = 3 ∨ edit = 4 → zero (at_ + 3) 3) ∧ (edit = 5 → byteAt p (at_ + 1) = 0)))

/-- CUE_CANCEL withdraws the cue and the WAITING cues chained to it, layer by layer: they leave the list, their edits leave the pool, the ramps an APPLYING one owns are frozen at their gains, and the reply counts them. Nothing completes. -/
def Obligations.CueCancelWithdrawsTheChain : Prop :=
  ∀ (s : State) (f : ReceivedFrame) (tag : Byte), s.Asks f .cueCancel [tag] → s.TagsDistinct →
    ((∀ c ∈ s.cues, c.tag ≠ tag) → exec .cueCancel s = .next (s.answered f .noSuchCue [])) ∧
    ((∃ c ∈ s.cues, c.tag = tag) → ∃ (t : State) (gone : List Byte), exec .cueCancel s = .next t ∧
      tag ∈ gone ∧ gone.Nodup ∧ (∀ x ∈ gone, x ∈ s.cues.map Cue.tag) ∧
      (∀ x ∈ gone, x ≠ tag → ∃ c ∈ s.cues, c.tag = x ∧ c.state = .waiting ∧ ∃ y ∈ gone, c.trigger = .after y) ∧
      (∀ c ∈ s.cues, ∀ y ∈ gone, c.state = .waiting → c.trigger = .after y → c.tag ∈ gone) ∧
      t = { s with
        cues := s.cues.filter fun c => decide (c.tag ∉ gone)
        mix := { s.mix with buses := t.mix.buses, xp := t.mix.xp }
        link := s.link.answered f .ok [BitVec.ofNat 8 gone.length] } ∧
      (t.mix.xp = s.mix.xp.map fun e =>
        if ∃ c ∈ s.cues, c.tag ∈ gone ∧ c.state = .applying ∧ e.owner = some c.tag then { e with state := .steady } else e) ∧
      ∀ b, t.bus b = { s.bus b with holdCount := (s.bus b).holdCount -
        ((s.cues.filter fun c => decide (c.tag ∈ gone)).flatMap Cue.edits |>.filter fun e => decide (e.bus = b)).length })

/-- The due test: an AT trigger is due at its own frame number and at the 2^31 - 1 after it, counting through the wrap; NEXT unless deferred; PIN when armed; AFTER never; and only a WAITING cue of the group is ever due. -/
def Obligations.DueTest : Prop :=
  ∀ (g : GroupId) (n : FrameNo) (c : Cue),
    (c.isDue g n = true → c.state = .waiting ∧ c.group = g) ∧
    (c.state = .waiting → c.group = g →
      (∀ at_, c.trigger = .atFrame at_ → (c.isDue g n = true ↔ ∃ k : Nat, k < 2 ^ 31 ∧ n = at_ + BitVec.ofNat 32 k)) ∧
      (c.trigger = .next → (c.isDue g n = true ↔ c.deferred = false)) ∧
      (∀ k, c.trigger = .pin k → (c.isDue g n = true ↔ c.armed = true)) ∧
      (∀ t, c.trigger = .after t → c.isDue g n = false))

/-! ### The stages of a pass -/

/-- CUE_START: the due cues, in admission order, are taken one after another; each is WAITING no more; a cue that was not due stays WAITING; the pass goes on to its gain step, or ends if its bus set is empty. The lanes, the word path, the lines' words and the queues are unchanged. -/
def Obligations.CueStartTakesTheDueCues : Prop :=
  ∀ (s : State) (g : GroupId) (p : Pass), s.pass g = some p → p.stage = .cueStart → s.TagsDistinct →
    ∃ t, exec (.cueStart g) s = .next t ∧
      t = { s with mix := t.mix, cues := t.cues, mem := { s.mem with lines := t.mem.lines }, link := t.link, faults := t.faults } ∧
      (∀ o, o ≠ g → t.pass o = s.pass o) ∧
      t.pass g = (if p.buses = [] then none else some { p with stage := .gainStep }) ∧
      (∀ c ∈ s.cues, c.isDue g p.frame = true → ∀ d ∈ t.cues, d.tag = c.tag → d.state = .applying ∧ d.edits = []) ∧
      (∀ c ∈ s.cues, c.state = .waiting → c.isDue g p.frame = false →
        ∃ d ∈ t.cues, d.tag = c.tag ∧ d.state = .waiting ∧ d.edits = c.edits ∧ d.armed = c.armed ∧
          (d.trigger = c.trigger ∨ ∃ x, c.trigger = .after x ∧ d.trigger = .next)) ∧
      (∀ d ∈ t.cues, ∃ c ∈ s.cues, c.tag = d.tag ∧ c.group = d.group ∧ c.rampLength = d.rampLength)

/-- CUE_START takes the due cues one after another in admission order, and the pass goes on to its gain step, or ends when its bus set is empty. A taken cue becomes APPLYING and its edits leave the pool; they are applied in posted order, each on what the ones before left; and it completes at once if it then owns no ramp. That its armed flag is then clear is the model's reading (log 17). Completion of a cue: its record leaves the list, CUE_DONE is raised with its group and tag, and the WAITING cues with trigger AFTER of its tag become NEXT, deferred while a pass of their group is in flight; nothing else changes. -/
def Obligations.TakenCuesApplyAndComplete : Prop :=
  (∀ (s : State) (g : GroupId) (p : Pass), s.pass g = some p → p.stage = .cueStart →
    let t := ((s.cues.filter fun c => c.isDue g p.frame).map Cue.tag).foldl (fun v tag => v.takeCue g p.frame tag) s
    (p.buses ≠ [] → exec (.cueStart g) s = .next (t.modifyPass g fun q => { q with stage := .gainStep })) ∧
    (p.buses = [] → exec (.cueStart g) s = .next (t.endPass g))) ∧
  (∀ (s : State) (g : GroupId) (n : FrameNo) (c : Cue), c ∈ s.cues → s.TagsDistinct →
    let x : CueContext := { group := g, frame := n, tag := c.tag, rampLength := c.rampLength }
    let taken : State := { (s.releaseHolds c.edits) with
      cues := s.cues.map fun d => if d.tag = c.tag then { d with state := .applying, edits := [], armed := false } else d }
    let u := c.edits.foldl (fun v e => v.applyEdit x e) taken
    ∃ d ∈ u.cues, d.tag = c.tag ∧
      (d.outstanding ≠ 0 → s.takeCue g n c.tag = u) ∧ (d.outstanding = 0 → s.takeCue g n c.tag = u.completeCue c.tag)) ∧
  (∀ (s : State) (c : Cue), c ∈ s.cues → s.TagsDistinct →
    s.completeCue c.tag = { s with
      link := s.link.occur .cueDone (.cueDone c.group c.tag)
      cues := (s.cues.filter fun d => decide (d.tag ≠ c.tag)).map fun d =>
        if d.state = .waiting ∧ d.trigger = .after c.tag then { d with trigger := .next, deferred := (s.pass d.group).isSome } else d }) ∧
  (∀ (s : State) (es : List Edit), s.releaseHolds es = { s with mix := { s.mix with buses := (s.releaseHolds es).mix.buses } } ∧
    ∀ b, (s.releaseHolds es).bus b = { s.bus b with
      holdCount := (s.bus b).holdCount - (es.filter fun e => decide (e.bus = b)).length })

/-- GAIN and DROP edits that are not void, with ramp length 0 and with a ramp, on a pair without and with an entry. A new ramp raises the count of the cue that applies the edit; a ramp that is taken over lowers its owner's, and an owner that is another cue and reaches 0 completes, with CUE_DONE and its AFTER dependents turned to NEXT. -/
def Obligations.GainAndDropEdits : Prop :=
  ∀ (s : State) (x : CueContext) (c : Channel) (b : BusId) (target : Gain), s.isInput c = true → s.TableInOrder →
    let ramp (start goal : Gain) : Ramp := { start := start, target := goal, length := x.rampLength, elapsed := 0, owner := x.tag }
    (xpFind s.mix.xp c b = none →
      s.applyEdit x (.drop c b) = s ∧
      (96 ≤ s.mix.xp.length → s.applyEdit x (.gain c b target) =
        s.pushFault { FaultRecord.of .xpFull x.group x.frame with channel := some c, bus := some b, tag := some x.tag }) ∧
      (s.mix.xp.length < 96 →
        let t := s.applyEdit x (.gain c b target)
        (∀ d a, xpFind t.mix.xp d a = if d = c ∧ a = b then some (if x.rampLength = 0
            then { channel := c, bus := b, gain := target, state := .steady }
            else { channel := c, bus := b, gain := 0, state := .ramping (ramp 0 target) })
          else xpFind s.mix.xp d a) ∧
        (∀ a, t.bus a = if a = b then { s.bus a with entryCount := (s.bus a).entryCount + 1 } else s.bus a) ∧
        t.faults = s.faults ∧ t.link = s.link ∧ t.mix.routes = s.mix.routes ∧ t.mem = s.mem ∧
        t.cues = if x.rampLength = 0 then s.cues else
          s.cues.map fun d => if d.tag = x.tag then { d with outstanding := d.outstanding + 1 } else d)) ∧
    (∀ e, xpFind s.mix.xp c b = some e →
      (let t := s.applyEdit x (.gain c b target)
       (∀ d a, xpFind t.mix.xp d a = if d = c ∧ a = b then some (if x.rampLength = 0
            then { e with gain := target, state := .steady }
            else { e with state := .ramping (ramp e.gain target) })
          else xpFind s.mix.xp d a) ∧
        (∀ a, t.bus a = s.bus a) ∧ t.faults = s.faults ∧ t.mix.routes = s.mix.routes ∧ t.mem = s.mem ∧ s.TakesOver x e t) ∧
      (let t := s.applyEdit x (.drop c b)
       (∀ d a, xpFind t.mix.xp d a = if d = c ∧ a = b
            then (if x.rampLength = 0 then none else some { e with state := .fading (ramp e.gain 0) })
          else xpFind s.mix.xp d a) ∧
        (∀ a, t.bus a = if a = b ∧ x.rampLength = 0 then { s.bus a with entryCount := (s.bus a).entryCount - 1 } else s.bus a) ∧
        t.faults = s.faults ∧ t.mix.routes = s.mix.routes ∧ t.mem = s.mem ∧ s.TakesOver x e t))

/-- ROUTE, UNROUTE and DELAY edits, and void edits of every kind. -/
def Obligations.RouteDelayAndVoidEdits : Prop :=
  ∀ (s : State) (x : CueContext) (c : Channel) (b : BusId) (n : Nat) (target : Gain),
    let lose (o : BusId) : Vector BusRecord 16 := s.mix.buses.set o { s.bus o with ownedCount := (s.bus o).ownedCount - 1 }
    let clash (y : BusId) : FaultRecord :=
      { FaultRecord.of .clash x.group x.frame with channel := some c, bus := some y, secondBus := some b, tag := some x.tag }
    let void (ch : Option Channel) : FaultRecord :=
      { FaultRecord.of .editVoid x.group x.frame with channel := ch, bus := some b, tag := some x.tag }
    (s.route c = .free →
      s.applyEdit x (.route c b) = { s with mix := { s.mix with
        routes := s.mix.routes.set c (.owned b), buses := s.mix.buses.set b { s.bus b with ownedCount := (s.bus b).ownedCount + 1 } } } ∧
      s.applyEdit x (.unroute c b) = s) ∧
    (s.route c = .owned b → s.applyEdit x (.route c b) = s ∧
      s.applyEdit x (.unroute c b) = { s with mix := { s.mix with routes := s.mix.routes.set c .free, buses := lose b } }) ∧
    (∀ o, s.route c = .owned o → o ≠ b →
      s.applyEdit x (.route c b) = State.pushFault { s with mix := { s.mix with
        routes := s.mix.routes.set c (.clashed o b), buses := lose o } } (clash o) ∧
      s.applyEdit x (.unroute c b) = s) ∧
    (∀ y z, s.route c = .clashed y z →
      s.applyEdit x (.route c b) = State.pushFault { s with mix := { s.mix with routes := s.mix.routes.set c (.clashed z b) } } (clash z) ∧
      s.applyEdit x (.unroute c b) = s) ∧
    (s.route c = .absent → s.applyEdit x (.route c b) = s.pushFault (void (some c)) ∧
      s.applyEdit x (.unroute c b) = s.pushFault (void (some c))) ∧
    (s.isInput c = false → s.applyEdit x (.gain c b target) = s.pushFault (void (some c)) ∧
      s.applyEdit x (.drop c b) = s.pushFault (void (some c))) ∧
    (∀ l, s.line b = some l → n < l.length → s.applyEdit x (.delay b n) = { s with mem := { s.mem with
      lines := s.mem.lines.set b (some { l with delay := n }) } }) ∧
    ((∀ l ∈ s.line b, l.length ≤ n) → s.applyEdit x (.delay b n) = s.pushFault (void none))

/-- GAIN_STEP: every ramp of the pass's buses and group (the group by the model's reading, log 24) advances by one and ends at its length, a RAMPING entry as STEADY at its target and a FADING one removed with its bus's entry count lowered; the term list of each bus is the entries that remain on it, at their stepped gains. Each ramp that ends lowers its owner's count, and a cue that reaches 0 completes with CUE_DONE, in the order in which the cues reach it. The faults, routes, lanes, word path and memory port are unchanged. The gain of a ramp after k of its n passes: start plus the quotient of (target - start) * k by n, truncated toward zero; it lies between start and target, and is the target at k = n. -/
def Obligations.GainStepAdvancesTheRamps : Prop :=
  (∀ (s : State) (g : GroupId) (p : Pass), s.pass g = some p → p.stage = .gainStep →
     let stepped (e : Entry) : Option Entry :=
       if (∃ i ∈ p.buses, i.bus = e.bus) ∧ s.groupOfChannel e.channel = g then
         match e.state with
         | .steady => some e
         | .ramping r => some (if r.elapsed + 1 < r.length
             then { e with gain := r.gainAt (r.elapsed + 1), state := .ramping { r with elapsed := r.elapsed + 1 } }
             else { e with gain := r.target, state := .steady })
         | .fading r => if r.elapsed + 1 < r.length
             then some { e with gain := r.gainAt (r.elapsed + 1), state := .fading { r with elapsed := r.elapsed + 1 } }
             else none
       else some e
     ∃ t, exec (.gainStep g) s = .next t ∧
       t = { s with mix := { t.mix with routes := s.mix.routes }, cues := t.cues, link := t.link } ∧
       t.mix.xp = s.mix.xp.filterMap stepped ∧
       (∀ b, t.bus b = { s.bus b with
         entryCount := (s.bus b).entryCount - (s.mix.xp.filter fun e => decide (e.bus = b ∧ stepped e = none)).length }) ∧
       (∀ o, o ≠ g → t.pass o = s.pass o) ∧
       t.pass g = some { p with stage := .accumulate, buses := p.buses.map fun i =>
         { i with terms :=
           (t.mix.xp.filter fun e => decide (e.bus = i.bus ∧ s.groupOfChannel e.channel = g)).map fun e => (e.channel, e.gain) } } ∧
       (s.TagsDistinct → s.RampCountsExact → s.TableInOrder → s.CuesAfterLoss
         (s.mix.xp.filter fun e => decide ((∃ i ∈ p.buses, i.bus = e.bus) ∧ s.groupOfChannel e.channel = g ∧
           ∃ r, e.state.ramp = some r ∧ r.length ≤ r.elapsed + 1)) t.cues t.link)) ∧
  (∀ (r : Ramp) (k : Nat), 1 ≤ r.length → k ≤ r.length →
     (r.gainAt k).toInt = r.start.toInt + ((r.target.toInt - r.start.toInt) * k).tdiv r.length ∧
     min r.start.toInt r.target.toInt ≤ (r.gainAt k).toInt ∧ (r.gainAt k).toInt ≤ max r.start.toInt r.target.toInt ∧
     r.gainAt r.length = r.target)

/-- The rounded integer of an accumulator: the quotient by 2^20 rounded toward minus infinity, or to the nearest integer with a half going to the even one; the two agree on integers, and the integer lies within -2^30 to 2^30 (R71). -/
def Obligations.RoundingFollowsTheSetting : Prop :=
  (∀ acc : Int,
    let t := roundSum .truncate acc
    let c := roundSum .convergent acc
    (t * 2 ^ 20 ≤ acc ∧ acc < (t + 1) * 2 ^ 20) ∧
    (2 * (acc - c * 2 ^ 20) ≤ 2 ^ 20 ∧ -2 ^ 20 ≤ 2 * (acc - c * 2 ^ 20)) ∧
    (2 * (acc - c * 2 ^ 20) = 2 ^ 20 ∨ 2 * (acc - c * 2 ^ 20) = -2 ^ 20 → c % 2 = 0) ∧
    ((2 : Int) ^ 20 ∣ acc → t = c) ∧
    (c = t + 1 ↔ (2 ^ 20 < 2 * (acc - t * 2 ^ 20) ∨ (2 * (acc - t * 2 ^ 20) = 2 ^ 20 ∧ t % 2 = 1))) ∧
    (-2 ^ 50 ≤ acc → acc ≤ 2 ^ 50 → -2 ^ 30 ≤ t ∧ t ≤ 2 ^ 30 ∧ -2 ^ 30 ≤ c ∧ c ≤ 2 ^ 30)) ∧
  (∀ (samples : List (Channel × Sample)) (i : PassBus),
    i.rounded samples = roundSum i.rounding (accumulator samples i.terms))

/-- ACCUMULATE: each bus's result is the rounded exact sum of sample times gain over its terms, limited by its overflow setting; a bus out of range sets its clip flag, and a flag that becomes set raises CLIP. -/
def Obligations.AccumulateSumsAndClips : Prop :=
  ∀ (s : State) (g : GroupId) (p : Pass), s.pass g = some p → p.stage = .accumulate →
    let sum (i : PassBus) : Int := roundSum i.rounding
      ((i.terms.map fun t => ((p.samples.lookup t.1).getD 0).toInt * t.2.toInt).sum)
    let out (b : BusId) : Bool := p.buses.any fun i => decide (i.bus = b) && decide (sum i < -8388608 ∨ 8388607 < sum i)
    ∃ t, exec (.accumulate g) s = .next t ∧
      t = { s with mix := { t.mix with xp := s.mix.xp, routes := s.mix.routes }, link := t.link } ∧
      (∀ o, o ≠ g → t.pass o = s.pass o) ∧
      (∃ buses, t.pass g = some { p with stage := .exchange, buses := buses } ∧
        buses.map PassBus.bus = p.buses.map PassBus.bus ∧
        ∀ (k : Nat) (i j : PassBus), p.buses[k]? = some i → buses[k]? = some j →
          j = { i with result := j.result } ∧
          (-8388608 ≤ sum i → sum i ≤ 8388607 → j.result.toInt = sum i) ∧
          (8388607 < sum i → i.overflow = .saturate → j.result.toInt = 8388607) ∧
          (sum i < -8388608 → i.overflow = .saturate → j.result.toInt = -8388608) ∧
          (i.overflow = .wrap → (2 : Int) ^ 24 ∣ j.result.toInt - sum i)) ∧
      (∀ b, t.bus b = { s.bus b with clip := (s.bus b).clip || out b }) ∧
      ((∀ b, out b = true → (s.bus b).clip = true) → t.link = s.link) ∧
      (∀ b, out b = true → (s.bus b).clip = false → s.link.enabled .clip = true →
        ∃ mask more, t.link.notice .clip = some { payload := .clip mask, more := more } ∧
          (s.link.notice .clip = none → ∀ d : BusId, mask.getLsbD d.val = (out d && !(s.bus d).clip)) ∧
          (∀ old m, s.link.notice .clip = some { payload := .clip old, more := m } →
            more = true ∧ ∀ d : BusId, mask.getLsbD d.val = (old.getLsbD d.val || (out d && !(s.bus d).clip))))

/-- A placement writes the value, fresh, into the slot of every channel of the group (by the model's reading, log 24) that the bus owns, and nothing once the pass's left LOCKED flag is set and its group is LOCKED. A pass ends when its exchange has dealt with every bus, no offer waits and no read is outstanding; its context is then IDLE and the deferred flags of its group's cues are cleared; otherwise nothing changes. -/
def Obligations.PlacementAndEndOfAPass : Prop :=
  (∀ (s : State) (g : GroupId) (b : BusId) (v : Sample) (p : Pass), s.pass g = some p →
     (p.leftLocked = true → (s.group g).state = .locked → s.place g b v = s) ∧
     (¬(p.leftLocked = true ∧ (s.group g).state = .locked) →
       s.place g b v = { s with word := { s.word with outSlot := (s.place g b v).word.outSlot } } ∧
       ∀ c : Channel, (s.place g b v).word.outSlot[c] =
         if s.route c = .owned b ∧ s.groupOfChannel c = g then ⟨v, true⟩ else s.word.outSlot[c])) ∧
  (∀ (s : State) (g : GroupId) (p : Pass), s.pass g = some p →
     let done := p.stage = .exchange ∧ p.wait = none ∧ p.outstanding = [] ∧ ∀ i ∈ p.buses, i.progress ≠ .waiting
     (¬ done → s.finishPass g = s) ∧
     (done → s.finishPass g = { s with
       mix := { s.mix with passes := s.mix.passes.set g none }
       cues := s.cues.map fun c => if c.group = g then { c with deferred := false } else c }))

/-- EXCHANGE_VISIT: the pass's next bus without an exchanging line has its value known and placed at once: its result with no line or a delay of 0, and zero while its line is CLEARING. The pass ends if that was all. -/
def Obligations.VisitWithoutAnExchange : Prop :=
  ∀ (s : State) (g : GroupId) (p : Pass) (i : PassBus), s.pass g = some p → p.stage = .exchange → p.wait = none →
    p.buses.find? (fun j => decide (j.progress = .waiting)) = some i →
    let known (v : Sample) : Pass := { p with
      buses := p.buses.map fun j => if j.bus = i.bus then { j with progress := .known v } else j
      outstanding := p.outstanding.filter fun r => decide (r.2 ≠ i.bus) }
    let placed (v : Sample) : State := { s with
      mix := { s.mix with passes := s.mix.passes.set g (some (known v)) }
      word := (s.place g i.bus v).word }
    (s.line i.bus = none → exec (.exchangeVisit g) s = .next ((placed i.result).finishPass g)) ∧
    (∀ l, s.line i.bus = some l → l.state = .active → l.delay = 0 →
      exec (.exchangeVisit g) s = .next ((placed i.result).finishPass g)) ∧
    (∀ l c, s.line i.bus = some l → l.state = .clearing c → exec (.exchangeVisit g) s = .next ((placed 0).finishPass g))

/-- EXCHANGE_VISIT of a bus with an ACTIVE line and a delay fixes the pair, a read of (w - d) mod L and then a write of w, and offers it. An offered read is answered from the newest queued write of its address, or enters the read queue, or its pass waits; once it is accepted the write is offered, which enters the write queue and advances the write index modulo L, or waits. An offer that waited longer goes first (of a newcomer too: the model's reading, log 13); PASS_READ_OFFER and PASS_WRITE_OFFER offer again for the group that has waited longest, when a place is free. -/
def Obligations.ExchangesWithTheLine : Prop :=
  (∀ (s : State) (g : GroupId) (p : Pass), s.pass g = some p →
    (∀ (i : PassBus) (l : Line), p.stage = .exchange → p.wait = none →
      p.buses.find? (fun j => decide (j.progress = .waiting)) = some i → s.line i.bus = some l → l.state = .active → l.delay ≠ 0 →
      let a := l.base + (l.writeIndex + l.length - l.delay) % l.length
      let q : Pass := { p with
        buses := p.buses.map fun j => if j.bus = i.bus then { j with progress := .readOutstanding } else j
        outstanding := p.outstanding ++ [(a, i.bus)]
        wait := some { bus := i.bus, read := some a, write := l.base + l.writeIndex, value := i.result } }
      exec (.exchangeVisit g) s = .next (State.finishPass
        (State.offerRead { s with mix := { s.mix with passes := s.mix.passes.set g (some q) } } g) g)) ∧
    (∀ (w : Waiting) (a : Nat), p.wait = some w → w.read = some a →
      let leave := s.mem.readWait.filter fun h => decide (h ≠ g)
      (∀ older q newer, s.mem.writeQ = older ++ [q] ++ newer → q.address = a → (∀ r ∈ newer, r.address ≠ a) →
        let v : Sample := q.value.setWidth 24
        let known : Pass := { p with
          buses := p.buses.map fun j => if j.bus = w.bus then { j with progress := .known v } else j
          outstanding := p.outstanding.filter fun r => decide (r.2 ≠ w.bus)
          wait := some { w with read := none } }
        s.offerRead g = State.offerWrite { s with
          mix := { s.mix with passes := s.mix.passes.set g (some known) }
          mem := { s.mem with readWait := leave }
          word := (s.place g w.bus v).word } g) ∧
      ((∀ q ∈ s.mem.writeQ, q.address ≠ a) → s.mem.readQ.length < 16 → (∀ h ∈ s.mem.readWait.head?, h = g) →
        s.offerRead g = State.offerWrite { s with
          mix := { s.mix with passes := s.mix.passes.set g (some { p with wait := some { w with read := none } }) }
          mem := MemoryPort.arbitrate { s.mem with
            readWait := leave, readQ := s.mem.readQ ++ [{ address := a, group := g, bus := w.bus }] } } g) ∧
      ((∀ q ∈ s.mem.writeQ, q.address ≠ a) → ¬(s.mem.readQ.length < 16 ∧ ∀ h ∈ s.mem.readWait.head?, h = g) →
        s.offerRead g = { s with mem := { s.mem with
          readWait := if g ∈ s.mem.readWait then s.mem.readWait else s.mem.readWait ++ [g] } })) ∧
    (∀ (w : Waiting), p.wait = some w →
      let entry : WriteRequest := { address := w.write, value := w.value.signExtend 32, source := .pass g w.bus }
      (∀ l, s.line w.bus = some l → s.mem.writeQ.length < 8 → (∀ h ∈ s.mem.writeWait.head?, h = g) →
        s.offerWrite g = { s with
          mix := { s.mix with passes := s.mix.passes.set g (some { p with wait := none }) }
          mem := MemoryPort.arbitrate { s.mem with
            writeWait := s.mem.writeWait.filter fun h => decide (h ≠ g)
            writeQ := s.mem.writeQ ++ [entry]
            lines := s.mem.lines.set w.bus (some { l with writeIndex := (l.writeIndex + 1) % l.length }) } }) ∧
      (¬(s.mem.writeQ.length < 8 ∧ ∀ h ∈ s.mem.writeWait.head?, h = g) →
        s.offerWrite g = { s with mem := { s.mem with
          writeWait := if g ∈ s.mem.writeWait then s.mem.writeWait else s.mem.writeWait ++ [g] } }))) ∧
  (∀ (s : State) (g : GroupId),
    (s.mem.readQ.length < 16 → s.mem.readWait.head? = some g →
      exec (.passReadOffer g) s = .next (State.finishPass (s.offerRead g) g)) ∧
    (s.mem.writeQ.length < 8 → s.mem.writeWait.head? = some g →
      exec (.passWriteOffer g) s = .next (State.finishPass (s.offerWrite g) g)) ∧
    (¬(s.mem.readQ.length < 16 ∧ s.mem.readWait.head? = some g) → exec (.passReadOffer g) s = .next s) ∧
    (¬(s.mem.writeQ.length < 8 ∧ s.mem.writeWait.head? = some g) → exec (.passWriteOffer g) s = .next s))

/-! ### Delay lines and the memory port -/

/-- LINE_DEFINE: the checks in order, and the new CLEARING line at the end of the clearing order. LINE_CLEAR and LINE_RELEASE: the line starts its clear afresh with its base, length and delay kept, or is removed and leaves the clearing order; the queues and the access under way are unchanged, and no pass goes on offering for the bus (its withdrawn read: log 12). -/
def Obligations.LineRequests : Prop :=
  (∀ (s : State) (f : ReceivedFrame) (b : BusId) (base length : BitVec 24),
     s.Asks f .lineDefine ([BitVec.ofNat 8 b.val] ++ bytes24 base ++ bytes24 length) →
     let shape := length.toNat ∈ [256, 512, 1024, 2048, 4096, 8192, 16384, 32768, 65536] ∧ base.toNat % length.toNat = 0
     let fits := s.dramWords ≠ 0 ∧ base.toNat + length.toNat ≤ s.dramWords
     let clear := ∀ c, ∀ m ∈ s.line c, base.toNat + length.toNat ≤ m.base ∨ m.base + m.length ≤ base.toNat
     (s.line b ≠ none → exec .lineDefine s = .next (s.answered f .inUse [])) ∧
     (s.line b = none → ¬ shape → exec .lineDefine s = .next (s.answered f .badValue [])) ∧
     (s.line b = none → shape → ¬ fits → exec .lineDefine s = .next (s.answered f .outOfMemory [])) ∧
     (s.line b = none → shape → fits → ¬ clear → exec .lineDefine s = .next (s.answered f .overlap [])) ∧
     (s.line b = none → shape → fits → clear → exec .lineDefine s = .next { s with
       mem := { s.mem with
         lines := s.mem.lines.set b (some { base := base.toNat, length := length.toNat, writeIndex := 0, delay := 0, state := .clearing 0 })
         clearing := s.mem.clearing ++ [b] }
       link := s.link.answered f .ok [] })) ∧
  (∀ (s : State) (f : ReceivedFrame) (b : BusId),
     let quiet (t : State) : Prop :=
       t.mem.readQ = s.mem.readQ ∧ t.mem.writeQ = s.mem.writeQ ∧ t.mem.access = s.mem.access ∧ t.mem.dram = s.mem.dram ∧
       t.mem.openRow = s.mem.openRow ∧ t.lane = s.lane ∧ t.word = s.word ∧ t.mix.xp = s.mix.xp ∧ t.mix.routes = s.mix.routes ∧
       t.mix.buses = s.mix.buses ∧ t.faults = s.faults ∧ t.pins = s.pins ∧ t.link = s.link.answered f .ok [] ∧
       (∀ g, ∀ p ∈ t.pass g, ∀ w ∈ p.wait, w.bus ≠ b) ∧
       (∀ g p, s.pass g = some p → (∀ w ∈ p.wait, w.bus ≠ b) → t.pass g = some p)
     (s.Asks f .lineClear [BitVec.ofNat 8 b.val] →
       (s.line b = none → exec .lineClear s = .next (s.answered f .noLine [])) ∧
       (∀ l, s.line b = some l → ∃ t, exec .lineClear s = .next t ∧ quiet t ∧
         t.mem.lines = s.mem.lines.set b (some { l with writeIndex := 0, state := .clearing 0 }) ∧
         (l.state = .active → t.mem.clearing = s.mem.clearing ++ [b]) ∧ (l.state ≠ .active → t.mem.clearing = s.mem.clearing))) ∧
     (s.Asks f .lineRelease [BitVec.ofNat 8 b.val] →
       (s.line b = none → exec .lineRelease s = .next (s.answered f .noLine [])) ∧
       (s.line b ≠ none → ∃ t, exec .lineRelease s = .next t ∧ quiet t ∧
         t.mem.lines = s.mem.lines.set b none ∧ t.mem.clearing = s.mem.clearing.filter fun c => decide (c ≠ b))))

/-- CLEAR_WRITE: with at least 2 free places in the write queue, the head line's next zero write is admitted, and the arbiter looks at the DRAM; the last one makes the line ACTIVE with write index 0, takes it off the clearing order and raises LINE. With less room, or with no line to clear, nothing happens. -/
def Obligations.ClearWriteFillsTheHeadLine : Prop :=
  (∀ s : State, s.mem.clearing = [] → exec .clearWrite s = .next s) ∧
  (∀ (s : State) (b : BusId) (rest : List BusId) (l : Line) (k : Nat), s.mem.clearing = b :: rest →
    s.line b = some l → l.state = .clearing k →
    let zero : WriteRequest := { address := l.base + k, value := 0, source := .clearEngine }
    (7 ≤ s.mem.writeQ.length → exec .clearWrite s = .next s) ∧
    (s.mem.writeQ.length ≤ 6 → k + 1 < l.length → exec .clearWrite s = .next { s with mem := MemoryPort.arbitrate { s.mem with
      lines := s.mem.lines.set b (some { l with state := .clearing (k + 1) }), writeQ := s.mem.writeQ ++ [zero] } }) ∧
    (s.mem.writeQ.length ≤ 6 → l.length ≤ k + 1 → ∃ t, exec .clearWrite s = .next t ∧
      t = { s with mem := t.mem, link := s.link.occur .line (.line b) } ∧
      let m : MemoryPort := MemoryPort.arbitrate { s.mem with
        lines := s.mem.lines.set b (some { l with writeIndex := 0, state := .active }), writeQ := s.mem.writeQ ++ [zero] }
      t.mem = { m with clearing := s.mem.clearing.filter (fun c => decide (c ≠ b)) }))

/-- DRAM_READ_COMPLETE, DRAM_WRITE_COMPLETE, REFRESH_DUE and REFRESH_COMPLETE: the value goes to the pass that offered the read and the bus is placed; the word is stored; a refresh closes the row; and the arbiter then chooses. An access to a word the DRAM does not have stops (log 11). The arbiter at a free DRAM: a due refresh first; otherwise, with 8 queued writes, the oldest read of the oldest write's address, or that write; otherwise the oldest read, otherwise the oldest write. The access is fast exactly when its row is the open row, and opens its row. That a read need not have entered the port before that write is the model's reading of R137 (log 14), and that no refresh falls due while RESET is held that of R127 (log 22). -/
def Obligations.DramAccessesAndTheArbiter : Prop :=
  (∀ s : State,
     let free (t : State) : State := { t with mem := MemoryPort.arbitrate { t.mem with access := none } }
     (∀ a g b q p, s.mem.access = some (.read a (some (g, b)) q) → a < s.dramWords → s.pass g = some p →
       let v : Sample := (Memory.read s.mem.dram a).setWidth 24
       let known : Pass := { p with
         buses := p.buses.map fun j => if j.bus = b then { j with progress := .known v } else j
         outstanding := p.outstanding.filter fun r => decide (r.2 ≠ b) }
       exec .dramReadComplete s = .next (free (State.finishPass { s with
         mix := { s.mix with passes := s.mix.passes.set g (some known) }, word := (s.place g b v).word } g))) ∧
     (∀ a q, s.mem.access = some (.read a none q) → a < s.dramWords → exec .dramReadComplete s = .next (free s)) ∧
     (∀ a v q, s.mem.access = some (.write a v q) → a < s.dramWords → ∃ t, exec .dramWriteComplete s = .next t ∧
       t = free { s with mem := { s.mem with dram := t.mem.dram } } ∧
       ∀ c, Memory.read t.mem.dram c = if c = a then v else Memory.read s.mem.dram c) ∧
     (∀ a d q, s.mem.access = some (.read a d q) → s.dramWords ≤ a → exec .dramReadComplete s = .fault (.noSuchWord a)) ∧
     (∀ a v q, s.mem.access = some (.write a v q) → s.dramWords ≤ a → exec .dramWriteComplete s = .fault (.noSuchWord a)) ∧
     (s.mem.access = some .refresh →
       exec .refreshComplete s = .next (free { s with mem := { s.mem with openRow := none } })) ∧
     (s.resetHeld = false → s.dramWords ≠ 0 → exec .refreshDue s = .next { s with
       mem := if s.mem.access = none then { s.mem with access := some .refresh, refreshDue := false }
              else { s.mem with refreshDue := true } }) ∧
     (s.dramWords = 0 ∨ s.resetHeld = true → exec .refreshDue s = .next s)) ∧
  (∀ m : MemoryPort,
     (∀ a, m.access = some a → m.arbitrate = m) ∧
     (m.access = none → m.refreshDue = true → m.arbitrate = { m with access := some .refresh, refreshDue := false }) ∧
     (m.access = none → m.refreshDue = false →
       let read (r : ReadRequest) : MemoryPort := { m with
         readQ := m.readQ.erase r, openRow := some (r.address / 1024)
         access := some (.read r.address (some (r.group, r.bus)) (decide (m.openRow = some (r.address / 1024)))) }
       let write (w : WriteRequest) : MemoryPort := { m with
         writeQ := m.writeQ.tail, openRow := some (w.address / 1024)
         access := some (.write w.address w.value (decide (m.openRow = some (w.address / 1024)))) }
       (m.readQ = [] → m.writeQ = [] → m.arbitrate = m) ∧
       (∀ r rs, m.readQ = r :: rs → m.writeQ.length < 8 → m.arbitrate = read r) ∧
       (∀ w ws, m.writeQ = w :: ws → m.readQ = [] → m.arbitrate = write w) ∧
       (∀ w ws, m.writeQ = w :: ws → 8 ≤ m.writeQ.length → (∀ r ∈ m.readQ, r.address ≠ w.address) → m.arbitrate = write w) ∧
       (∀ w ws early r late, m.writeQ = w :: ws → 8 ≤ m.writeQ.length → m.readQ = early ++ [r] ++ late →
         (∀ q ∈ early, q.address ≠ w.address) → r.address = w.address → m.arbitrate = read r)))

/-- Every word of the DRAM reads as before over every command but DRAM_WRITE_COMPLETE and HARDWARE_RESET. -/
def Obligations.OnlyWritesChangeTheDram : Prop :=
  ∀ (c : Instr) (s t : State), exec c s = .next t → c ≠ .dramWriteComplete → c ≠ .hardwareReset →
    ∀ a, Memory.read t.mem.dram a = Memory.read s.mem.dram a

/-! ### What every step keeps -/

/-- The DRAM's words stay in their canonical form, the list in rising order of address that is the model's own (log 9). -/
def Obligations.StepKeepsMemoryCanonical : Prop :=
  ∀ s t : State, s.MemoryCanonical → step s = .next t → t.MemoryCanonical

/-- The crosspoint table stays in order, without a pair twice, and every collection stays within its capacity. -/
def Obligations.StepKeepsCapacities : Prop :=
  ∀ s t : State,
    s.TableInOrder ∧ s.TableFits ∧ s.CueListFits ∧ s.LinkQueuesFit ∧ s.MemoryQueuesFit ∧ s.FaultStackFits →
    step s = .next t →
    t.TableInOrder ∧ t.TableFits ∧ t.CueListFits ∧ t.LinkQueuesFit ∧ t.MemoryQueuesFit ∧ t.FaultStackFits

/-- The tags stay distinct, an APPLYING cue has no edits left in the pool, and every hold count stays the number of pool records that name its bus. -/
def Obligations.StepKeepsHoldCounts : Prop :=
  ∀ s t : State, s.TagsDistinct ∧ s.AppliedEditsLeft ∧ s.HoldCountsExact → step s = .next t →
    t.TagsDistinct ∧ t.AppliedEditsLeft ∧ t.HoldCountsExact

/-- Every entry count stays the number of the bus's crosspoint entries. -/
def Obligations.StepKeepsEntryCounts : Prop :=
  ∀ s t : State, s.TableInOrder ∧ s.EntryCountsExact → step s = .next t → t.TableInOrder ∧ t.EntryCountsExact

/-- Every cue's ramps outstanding count stays the number of entries whose ramp names it: 0 while WAITING, and more than 0 while APPLYING. -/
def Obligations.StepKeepsRampCounts : Prop :=
  ∀ s t : State, s.TableInOrder ∧ s.TagsDistinct ∧ s.RampCountsExact → step s = .next t →
    t.TableInOrder ∧ t.TagsDistinct ∧ t.RampCountsExact

/-- The route table follows the channel set, and every owned channel count stays the number of channels the bus owns. -/
def Obligations.StepKeepsRoutes : Prop :=
  ∀ s t : State,
    (s.quad .A).LanesApart ∧ (s.quad .B).LanesApart ∧ s.RoutesFollowChannels ∧ s.OwnedCountsExact → step s = .next t →
    (t.quad .A).LanesApart ∧ (t.quad .B).LanesApart ∧ t.RoutesFollowChannels ∧ t.OwnedCountsExact

/-- The groups' states follow the quads, and the loss timers follow the groups' states. -/
def Obligations.StepKeepsGroups : Prop :=
  ∀ s t : State, s.JoinedIsB ∧ s.GroupConsistent .A ∧ s.GroupConsistent .B → step s = .next t →
    t.JoinedIsB ∧ t.GroupConsistent .A ∧ t.GroupConsistent .B

/-- Lines stay apart and inside the DRAM, and so does every address the memory port and the passes hold; while RESET is held everything stays reset. No step from such a state stops the block. -/
def Obligations.StepKeepsAddressesAndNeverStops : Prop :=
  ∀ s : State, s.AddressesInRange ∧ s.LinesApart ∧ s.HeldAtReset →
    ∃ t, step s = .next t ∧ t.AddressesInRange ∧ t.LinesApart ∧ t.HeldAtReset

/-- The state after reset has every property that the steps keep. -/
def Obligations.ResetHasEveryInvariant : Prop :=
  let s := State.reset
  s.MemoryCanonical ∧ s.TableInOrder ∧ s.TableFits ∧ s.CueListFits ∧ s.LinkQueuesFit ∧ s.MemoryQueuesFit ∧ s.FaultStackFits ∧
  s.TagsDistinct ∧ s.AppliedEditsLeft ∧ s.HoldCountsExact ∧ s.EntryCountsExact ∧ s.OwnedCountsExact ∧ s.RampCountsExact ∧
  (s.quad .A).LanesApart ∧ (s.quad .B).LanesApart ∧ s.RoutesFollowChannels ∧ s.JoinedIsB ∧
  s.GroupConsistent .A ∧ s.GroupConsistent .B ∧ s.AddressesInRange ∧ s.LinesApart ∧ s.HeldAtReset
end

