-- ==== Sys2Proof/Laws/State.lean ====
section
/-! SUPPORT. One lemma for each field and each accessor that an update of the state leaves alone, and what the updated one then is. -/

namespace Sys2Proof.Machine

variable (s : State)

/-! What stays when a clock group is replaced. -/

@[simp] theorem setGroup_pending (g : GroupId) (G : ClockGroup) : (s.setGroup g G).pending = s.pending := rfl
@[simp] theorem setGroup_resetHeld (g : GroupId) (G : ClockGroup) : (s.setGroup g G).resetHeld = s.resetHeld := rfl
@[simp] theorem setGroup_straps (g : GroupId) (G : ClockGroup) : (s.setGroup g G).straps = s.straps := rfl
@[simp] theorem setGroup_word (g : GroupId) (G : ClockGroup) : (s.setGroup g G).word = s.word := rfl
@[simp] theorem setGroup_mix (g : GroupId) (G : ClockGroup) : (s.setGroup g G).mix = s.mix := rfl
@[simp] theorem setGroup_cues (g : GroupId) (G : ClockGroup) : (s.setGroup g G).cues = s.cues := rfl
@[simp] theorem setGroup_mem (g : GroupId) (G : ClockGroup) : (s.setGroup g G).mem = s.mem := rfl
@[simp] theorem setGroup_link (g : GroupId) (G : ClockGroup) : (s.setGroup g G).link = s.link := rfl
@[simp] theorem setGroup_faults (g : GroupId) (G : ClockGroup) : (s.setGroup g G).faults = s.faults := rfl
@[simp] theorem setGroup_pins (g : GroupId) (G : ClockGroup) : (s.setGroup g G).pins = s.pins := rfl
@[simp] theorem setGroup_free (g : GroupId) (G : ClockGroup) : (s.setGroup g G).free = s.free := rfl
@[simp] theorem setGroup_quads (g : GroupId) (G : ClockGroup) : (s.setGroup g G).lane.quads = s.lane.quads := rfl
@[simp] theorem setGroup_joinedCapture (g : GroupId) (G : ClockGroup) : (s.setGroup g G).lane.joinedCapture = s.lane.joinedCapture := rfl
@[simp] theorem setGroup_joinedDriven (g : GroupId) (G : ClockGroup) : (s.setGroup g G).lane.joinedDriven = s.lane.joinedDriven := rfl
@[simp] theorem setGroup_quad (g : GroupId) (G : ClockGroup) (h : QuadId) : (s.setGroup g G).quad h = s.quad h := rfl
@[simp] theorem setGroup_pass (g : GroupId) (G : ClockGroup) (h : GroupId) : (s.setGroup g G).pass h = s.pass h := rfl
@[simp] theorem setGroup_bus (g : GroupId) (G : ClockGroup) (c : BusId) : (s.setGroup g G).bus c = s.bus c := rfl
@[simp] theorem setGroup_route (g : GroupId) (G : ClockGroup) (c : Channel) : (s.setGroup g G).route c = s.route c := rfl
@[simp] theorem setGroup_line (g : GroupId) (G : ClockGroup) (c : BusId) : (s.setGroup g G).line c = s.line c := rfl

/-! What stays when a quad is replaced. -/

@[simp] theorem setQuad_pending (q : QuadId) (Q : Quad) : (s.setQuad q Q).pending = s.pending := rfl
@[simp] theorem setQuad_resetHeld (q : QuadId) (Q : Quad) : (s.setQuad q Q).resetHeld = s.resetHeld := rfl
@[simp] theorem setQuad_straps (q : QuadId) (Q : Quad) : (s.setQuad q Q).straps = s.straps := rfl
@[simp] theorem setQuad_word (q : QuadId) (Q : Quad) : (s.setQuad q Q).word = s.word := rfl
@[simp] theorem setQuad_mix (q : QuadId) (Q : Quad) : (s.setQuad q Q).mix = s.mix := rfl
@[simp] theorem setQuad_cues (q : QuadId) (Q : Quad) : (s.setQuad q Q).cues = s.cues := rfl
@[simp] theorem setQuad_mem (q : QuadId) (Q : Quad) : (s.setQuad q Q).mem = s.mem := rfl
@[simp] theorem setQuad_link (q : QuadId) (Q : Quad) : (s.setQuad q Q).link = s.link := rfl
@[simp] theorem setQuad_faults (q : QuadId) (Q : Quad) : (s.setQuad q Q).faults = s.faults := rfl
@[simp] theorem setQuad_pins (q : QuadId) (Q : Quad) : (s.setQuad q Q).pins = s.pins := rfl
@[simp] theorem setQuad_free (q : QuadId) (Q : Quad) : (s.setQuad q Q).free = s.free := rfl
@[simp] theorem setQuad_groups (q : QuadId) (Q : Quad) : (s.setQuad q Q).lane.groups = s.lane.groups := rfl
@[simp] theorem setQuad_joinedCapture (q : QuadId) (Q : Quad) : (s.setQuad q Q).lane.joinedCapture = s.lane.joinedCapture := rfl
@[simp] theorem setQuad_joinedDriven (q : QuadId) (Q : Quad) : (s.setQuad q Q).lane.joinedDriven = s.lane.joinedDriven := rfl
@[simp] theorem setQuad_group (q : QuadId) (Q : Quad) (h : GroupId) : (s.setQuad q Q).group h = s.group h := rfl
@[simp] theorem setQuad_pass (q : QuadId) (Q : Quad) (h : GroupId) : (s.setQuad q Q).pass h = s.pass h := rfl
@[simp] theorem setQuad_bus (q : QuadId) (Q : Quad) (c : BusId) : (s.setQuad q Q).bus c = s.bus c := rfl
@[simp] theorem setQuad_route (q : QuadId) (Q : Quad) (c : Channel) : (s.setQuad q Q).route c = s.route c := rfl
@[simp] theorem setQuad_line (q : QuadId) (Q : Quad) (c : BusId) : (s.setQuad q Q).line c = s.line c := rfl

/-! What stays when a pass context is replaced. -/

@[simp] theorem setPass_pending (g : GroupId) (p : Option Pass) : (s.setPass g p).pending = s.pending := rfl
@[simp] theorem setPass_resetHeld (g : GroupId) (p : Option Pass) : (s.setPass g p).resetHeld = s.resetHeld := rfl
@[simp] theorem setPass_straps (g : GroupId) (p : Option Pass) : (s.setPass g p).straps = s.straps := rfl
@[simp] theorem setPass_lane (g : GroupId) (p : Option Pass) : (s.setPass g p).lane = s.lane := rfl
@[simp] theorem setPass_word (g : GroupId) (p : Option Pass) : (s.setPass g p).word = s.word := rfl
@[simp] theorem setPass_cues (g : GroupId) (p : Option Pass) : (s.setPass g p).cues = s.cues := rfl
@[simp] theorem setPass_mem (g : GroupId) (p : Option Pass) : (s.setPass g p).mem = s.mem := rfl
@[simp] theorem setPass_link (g : GroupId) (p : Option Pass) : (s.setPass g p).link = s.link := rfl
@[simp] theorem setPass_faults (g : GroupId) (p : Option Pass) : (s.setPass g p).faults = s.faults := rfl
@[simp] theorem setPass_pins (g : GroupId) (p : Option Pass) : (s.setPass g p).pins = s.pins := rfl
@[simp] theorem setPass_free (g : GroupId) (p : Option Pass) : (s.setPass g p).free = s.free := rfl
@[simp] theorem setPass_buses (g : GroupId) (p : Option Pass) : (s.setPass g p).mix.buses = s.mix.buses := rfl
@[simp] theorem setPass_xp (g : GroupId) (p : Option Pass) : (s.setPass g p).mix.xp = s.mix.xp := rfl
@[simp] theorem setPass_routes (g : GroupId) (p : Option Pass) : (s.setPass g p).mix.routes = s.mix.routes := rfl
@[simp] theorem setPass_group (g : GroupId) (p : Option Pass) (h : GroupId) : (s.setPass g p).group h = s.group h := rfl
@[simp] theorem setPass_quad (g : GroupId) (p : Option Pass) (h : QuadId) : (s.setPass g p).quad h = s.quad h := rfl
@[simp] theorem setPass_bus (g : GroupId) (p : Option Pass) (c : BusId) : (s.setPass g p).bus c = s.bus c := rfl
@[simp] theorem setPass_route (g : GroupId) (p : Option Pass) (c : Channel) : (s.setPass g p).route c = s.route c := rfl
@[simp] theorem setPass_line (g : GroupId) (p : Option Pass) (c : BusId) : (s.setPass g p).line c = s.line c := rfl

/-! What stays when a bus record is changed. -/

@[simp] theorem modifyBus_pending (b : BusId) (f : BusRecord → BusRecord) : (s.modifyBus b f).pending = s.pending := rfl
@[simp] theorem modifyBus_resetHeld (b : BusId) (f : BusRecord → BusRecord) : (s.modifyBus b f).resetHeld = s.resetHeld := rfl
@[simp] theorem modifyBus_straps (b : BusId) (f : BusRecord → BusRecord) : (s.modifyBus b f).straps = s.straps := rfl
@[simp] theorem modifyBus_lane (b : BusId) (f : BusRecord → BusRecord) : (s.modifyBus b f).lane = s.lane := rfl
@[simp] theorem modifyBus_word (b : BusId) (f : BusRecord → BusRecord) : (s.modifyBus b f).word = s.word := rfl
@[simp] theorem modifyBus_cues (b : BusId) (f : BusRecord → BusRecord) : (s.modifyBus b f).cues = s.cues := rfl
@[simp] theorem modifyBus_mem (b : BusId) (f : BusRecord → BusRecord) : (s.modifyBus b f).mem = s.mem := rfl
@[simp] theorem modifyBus_link (b : BusId) (f : BusRecord → BusRecord) : (s.modifyBus b f).link = s.link := rfl
@[simp] theorem modifyBus_faults (b : BusId) (f : BusRecord → BusRecord) : (s.modifyBus b f).faults = s.faults := rfl
@[simp] theorem modifyBus_pins (b : BusId) (f : BusRecord → BusRecord) : (s.modifyBus b f).pins = s.pins := rfl
@[simp] theorem modifyBus_free (b : BusId) (f : BusRecord → BusRecord) : (s.modifyBus b f).free = s.free := rfl
@[simp] theorem modifyBus_xp (b : BusId) (f : BusRecord → BusRecord) : (s.modifyBus b f).mix.xp = s.mix.xp := rfl
@[simp] theorem modifyBus_routes (b : BusId) (f : BusRecord → BusRecord) : (s.modifyBus b f).mix.routes = s.mix.routes := rfl
@[simp] theorem modifyBus_passes (b : BusId) (f : BusRecord → BusRecord) : (s.modifyBus b f).mix.passes = s.mix.passes := rfl
@[simp] theorem modifyBus_group (b : BusId) (f : BusRecord → BusRecord) (h : GroupId) : (s.modifyBus b f).group h = s.group h := rfl
@[simp] theorem modifyBus_quad (b : BusId) (f : BusRecord → BusRecord) (h : QuadId) : (s.modifyBus b f).quad h = s.quad h := rfl
@[simp] theorem modifyBus_pass (b : BusId) (f : BusRecord → BusRecord) (h : GroupId) : (s.modifyBus b f).pass h = s.pass h := rfl
@[simp] theorem modifyBus_route (b : BusId) (f : BusRecord → BusRecord) (c : Channel) : (s.modifyBus b f).route c = s.route c := rfl
@[simp] theorem modifyBus_line (b : BusId) (f : BusRecord → BusRecord) (c : BusId) : (s.modifyBus b f).line c = s.line c := rfl

/-! What stays when the crosspoint table is replaced. -/

@[simp] theorem setXp_pending (xp : List Entry) : (s.setXp xp).pending = s.pending := rfl
@[simp] theorem setXp_resetHeld (xp : List Entry) : (s.setXp xp).resetHeld = s.resetHeld := rfl
@[simp] theorem setXp_straps (xp : List Entry) : (s.setXp xp).straps = s.straps := rfl
@[simp] theorem setXp_lane (xp : List Entry) : (s.setXp xp).lane = s.lane := rfl
@[simp] theorem setXp_word (xp : List Entry) : (s.setXp xp).word = s.word := rfl
@[simp] theorem setXp_cues (xp : List Entry) : (s.setXp xp).cues = s.cues := rfl
@[simp] theorem setXp_mem (xp : List Entry) : (s.setXp xp).mem = s.mem := rfl
@[simp] theorem setXp_link (xp : List Entry) : (s.setXp xp).link = s.link := rfl
@[simp] theorem setXp_faults (xp : List Entry) : (s.setXp xp).faults = s.faults := rfl
@[simp] theorem setXp_pins (xp : List Entry) : (s.setXp xp).pins = s.pins := rfl
@[simp] theorem setXp_free (xp : List Entry) : (s.setXp xp).free = s.free := rfl
@[simp] theorem setXp_buses (xp : List Entry) : (s.setXp xp).mix.buses = s.mix.buses := rfl
@[simp] theorem setXp_routes (xp : List Entry) : (s.setXp xp).mix.routes = s.mix.routes := rfl
@[simp] theorem setXp_passes (xp : List Entry) : (s.setXp xp).mix.passes = s.mix.passes := rfl
@[simp] theorem setXp_group (xp : List Entry) (h : GroupId) : (s.setXp xp).group h = s.group h := rfl
@[simp] theorem setXp_quad (xp : List Entry) (h : QuadId) : (s.setXp xp).quad h = s.quad h := rfl
@[simp] theorem setXp_pass (xp : List Entry) (h : GroupId) : (s.setXp xp).pass h = s.pass h := rfl
@[simp] theorem setXp_bus (xp : List Entry) (c : BusId) : (s.setXp xp).bus c = s.bus c := rfl
@[simp] theorem setXp_route (xp : List Entry) (c : Channel) : (s.setXp xp).route c = s.route c := rfl
@[simp] theorem setXp_line (xp : List Entry) (c : BusId) : (s.setXp xp).line c = s.line c := rfl

/-! What stays when a line is replaced. -/

@[simp] theorem setLine_pending (b : BusId) (l : Option Line) : (s.setLine b l).pending = s.pending := rfl
@[simp] theorem setLine_resetHeld (b : BusId) (l : Option Line) : (s.setLine b l).resetHeld = s.resetHeld := rfl
@[simp] theorem setLine_straps (b : BusId) (l : Option Line) : (s.setLine b l).straps = s.straps := rfl
@[simp] theorem setLine_lane (b : BusId) (l : Option Line) : (s.setLine b l).lane = s.lane := rfl
@[simp] theorem setLine_word (b : BusId) (l : Option Line) : (s.setLine b l).word = s.word := rfl
@[simp] theorem setLine_mix (b : BusId) (l : Option Line) : (s.setLine b l).mix = s.mix := rfl
@[simp] theorem setLine_cues (b : BusId) (l : Option Line) : (s.setLine b l).cues = s.cues := rfl
@[simp] theorem setLine_link (b : BusId) (l : Option Line) : (s.setLine b l).link = s.link := rfl
@[simp] theorem setLine_faults (b : BusId) (l : Option Line) : (s.setLine b l).faults = s.faults := rfl
@[simp] theorem setLine_pins (b : BusId) (l : Option Line) : (s.setLine b l).pins = s.pins := rfl
@[simp] theorem setLine_free (b : BusId) (l : Option Line) : (s.setLine b l).free = s.free := rfl
@[simp] theorem setLine_clearing (b : BusId) (l : Option Line) : (s.setLine b l).mem.clearing = s.mem.clearing := rfl
@[simp] theorem setLine_readQ (b : BusId) (l : Option Line) : (s.setLine b l).mem.readQ = s.mem.readQ := rfl
@[simp] theorem setLine_writeQ (b : BusId) (l : Option Line) : (s.setLine b l).mem.writeQ = s.mem.writeQ := rfl
@[simp] theorem setLine_readWait (b : BusId) (l : Option Line) : (s.setLine b l).mem.readWait = s.mem.readWait := rfl
@[simp] theorem setLine_writeWait (b : BusId) (l : Option Line) : (s.setLine b l).mem.writeWait = s.mem.writeWait := rfl
@[simp] theorem setLine_openRow (b : BusId) (l : Option Line) : (s.setLine b l).mem.openRow = s.mem.openRow := rfl
@[simp] theorem setLine_access (b : BusId) (l : Option Line) : (s.setLine b l).mem.access = s.mem.access := rfl
@[simp] theorem setLine_refreshDue (b : BusId) (l : Option Line) : (s.setLine b l).mem.refreshDue = s.mem.refreshDue := rfl
@[simp] theorem setLine_dram (b : BusId) (l : Option Line) : (s.setLine b l).mem.dram = s.mem.dram := rfl
@[simp] theorem setLine_group (b : BusId) (l : Option Line) (h : GroupId) : (s.setLine b l).group h = s.group h := rfl
@[simp] theorem setLine_quad (b : BusId) (l : Option Line) (h : QuadId) : (s.setLine b l).quad h = s.quad h := rfl
@[simp] theorem setLine_pass (b : BusId) (l : Option Line) (h : GroupId) : (s.setLine b l).pass h = s.pass h := rfl
@[simp] theorem setLine_bus (b : BusId) (l : Option Line) (c : BusId) : (s.setLine b l).bus c = s.bus c := rfl
@[simp] theorem setLine_route (b : BusId) (l : Option Line) (c : Channel) : (s.setLine b l).route c = s.route c := rfl

/-! What stays when a general pin is replaced. -/

@[simp] theorem setPin_pending (k : PinId) (p : GeneralPin) : (s.setPin k p).pending = s.pending := rfl
@[simp] theorem setPin_resetHeld (k : PinId) (p : GeneralPin) : (s.setPin k p).resetHeld = s.resetHeld := rfl
@[simp] theorem setPin_straps (k : PinId) (p : GeneralPin) : (s.setPin k p).straps = s.straps := rfl
@[simp] theorem setPin_lane (k : PinId) (p : GeneralPin) : (s.setPin k p).lane = s.lane := rfl
@[simp] theorem setPin_word (k : PinId) (p : GeneralPin) : (s.setPin k p).word = s.word := rfl
@[simp] theorem setPin_mix (k : PinId) (p : GeneralPin) : (s.setPin k p).mix = s.mix := rfl
@[simp] theorem setPin_cues (k : PinId) (p : GeneralPin) : (s.setPin k p).cues = s.cues := rfl
@[simp] theorem setPin_mem (k : PinId) (p : GeneralPin) : (s.setPin k p).mem = s.mem := rfl
@[simp] theorem setPin_link (k : PinId) (p : GeneralPin) : (s.setPin k p).link = s.link := rfl
@[simp] theorem setPin_faults (k : PinId) (p : GeneralPin) : (s.setPin k p).faults = s.faults := rfl
@[simp] theorem setPin_free (k : PinId) (p : GeneralPin) : (s.setPin k p).free = s.free := rfl
@[simp] theorem setPin_group (k : PinId) (p : GeneralPin) (h : GroupId) : (s.setPin k p).group h = s.group h := rfl
@[simp] theorem setPin_quad (k : PinId) (p : GeneralPin) (h : QuadId) : (s.setPin k p).quad h = s.quad h := rfl
@[simp] theorem setPin_pass (k : PinId) (p : GeneralPin) (h : GroupId) : (s.setPin k p).pass h = s.pass h := rfl
@[simp] theorem setPin_bus (k : PinId) (p : GeneralPin) (c : BusId) : (s.setPin k p).bus c = s.bus c := rfl
@[simp] theorem setPin_route (k : PinId) (p : GeneralPin) (c : Channel) : (s.setPin k p).route c = s.route c := rfl
@[simp] theorem setPin_line (k : PinId) (p : GeneralPin) (c : BusId) : (s.setPin k p).line c = s.line c := rfl

/-! What stays when a cue is changed. -/

@[simp] theorem modifyCue_pending (x : Byte) (f : Cue → Cue) : (s.modifyCue x f).pending = s.pending := rfl
@[simp] theorem modifyCue_resetHeld (x : Byte) (f : Cue → Cue) : (s.modifyCue x f).resetHeld = s.resetHeld := rfl
@[simp] theorem modifyCue_straps (x : Byte) (f : Cue → Cue) : (s.modifyCue x f).straps = s.straps := rfl
@[simp] theorem modifyCue_lane (x : Byte) (f : Cue → Cue) : (s.modifyCue x f).lane = s.lane := rfl
@[simp] theorem modifyCue_word (x : Byte) (f : Cue → Cue) : (s.modifyCue x f).word = s.word := rfl
@[simp] theorem modifyCue_mix (x : Byte) (f : Cue → Cue) : (s.modifyCue x f).mix = s.mix := rfl
@[simp] theorem modifyCue_mem (x : Byte) (f : Cue → Cue) : (s.modifyCue x f).mem = s.mem := rfl
@[simp] theorem modifyCue_link (x : Byte) (f : Cue → Cue) : (s.modifyCue x f).link = s.link := rfl
@[simp] theorem modifyCue_faults (x : Byte) (f : Cue → Cue) : (s.modifyCue x f).faults = s.faults := rfl
@[simp] theorem modifyCue_pins (x : Byte) (f : Cue → Cue) : (s.modifyCue x f).pins = s.pins := rfl
@[simp] theorem modifyCue_free (x : Byte) (f : Cue → Cue) : (s.modifyCue x f).free = s.free := rfl
@[simp] theorem modifyCue_group (x : Byte) (f : Cue → Cue) (h : GroupId) : (s.modifyCue x f).group h = s.group h := rfl
@[simp] theorem modifyCue_quad (x : Byte) (f : Cue → Cue) (h : QuadId) : (s.modifyCue x f).quad h = s.quad h := rfl
@[simp] theorem modifyCue_pass (x : Byte) (f : Cue → Cue) (h : GroupId) : (s.modifyCue x f).pass h = s.pass h := rfl
@[simp] theorem modifyCue_bus (x : Byte) (f : Cue → Cue) (c : BusId) : (s.modifyCue x f).bus c = s.bus c := rfl
@[simp] theorem modifyCue_route (x : Byte) (f : Cue → Cue) (c : Channel) : (s.modifyCue x f).route c = s.route c := rfl
@[simp] theorem modifyCue_line (x : Byte) (f : Cue → Cue) (c : BusId) : (s.modifyCue x f).line c = s.line c := rfl

/-! What stays when a notice class occurs. -/

@[simp] theorem occur_pending (cls : NoticeClass) (p : NoticePayload) : (s.occur cls p).pending = s.pending := rfl
@[simp] theorem occur_resetHeld (cls : NoticeClass) (p : NoticePayload) : (s.occur cls p).resetHeld = s.resetHeld := rfl
@[simp] theorem occur_straps (cls : NoticeClass) (p : NoticePayload) : (s.occur cls p).straps = s.straps := rfl
@[simp] theorem occur_lane (cls : NoticeClass) (p : NoticePayload) : (s.occur cls p).lane = s.lane := rfl
@[simp] theorem occur_word (cls : NoticeClass) (p : NoticePayload) : (s.occur cls p).word = s.word := rfl
@[simp] theorem occur_mix (cls : NoticeClass) (p : NoticePayload) : (s.occur cls p).mix = s.mix := rfl
@[simp] theorem occur_cues (cls : NoticeClass) (p : NoticePayload) : (s.occur cls p).cues = s.cues := rfl
@[simp] theorem occur_mem (cls : NoticeClass) (p : NoticePayload) : (s.occur cls p).mem = s.mem := rfl
@[simp] theorem occur_faults (cls : NoticeClass) (p : NoticePayload) : (s.occur cls p).faults = s.faults := rfl
@[simp] theorem occur_pins (cls : NoticeClass) (p : NoticePayload) : (s.occur cls p).pins = s.pins := rfl
@[simp] theorem occur_free (cls : NoticeClass) (p : NoticePayload) : (s.occur cls p).free = s.free := rfl
@[simp] theorem occur_group (cls : NoticeClass) (p : NoticePayload) (h : GroupId) : (s.occur cls p).group h = s.group h := rfl
@[simp] theorem occur_quad (cls : NoticeClass) (p : NoticePayload) (h : QuadId) : (s.occur cls p).quad h = s.quad h := rfl
@[simp] theorem occur_pass (cls : NoticeClass) (p : NoticePayload) (h : GroupId) : (s.occur cls p).pass h = s.pass h := rfl
@[simp] theorem occur_bus (cls : NoticeClass) (p : NoticePayload) (c : BusId) : (s.occur cls p).bus c = s.bus c := rfl
@[simp] theorem occur_route (cls : NoticeClass) (p : NoticePayload) (c : Channel) : (s.occur cls p).route c = s.route c := rfl
@[simp] theorem occur_line (cls : NoticeClass) (p : NoticePayload) (c : BusId) : (s.occur cls p).line c = s.line c := rfl

/-! What stays when a fault is pushed. -/

@[simp] theorem pushFault_pending (f : FaultRecord) : (s.pushFault f).pending = s.pending := rfl
@[simp] theorem pushFault_resetHeld (f : FaultRecord) : (s.pushFault f).resetHeld = s.resetHeld := rfl
@[simp] theorem pushFault_straps (f : FaultRecord) : (s.pushFault f).straps = s.straps := rfl
@[simp] theorem pushFault_lane (f : FaultRecord) : (s.pushFault f).lane = s.lane := rfl
@[simp] theorem pushFault_word (f : FaultRecord) : (s.pushFault f).word = s.word := rfl
@[simp] theorem pushFault_mix (f : FaultRecord) : (s.pushFault f).mix = s.mix := rfl
@[simp] theorem pushFault_cues (f : FaultRecord) : (s.pushFault f).cues = s.cues := rfl
@[simp] theorem pushFault_mem (f : FaultRecord) : (s.pushFault f).mem = s.mem := rfl
@[simp] theorem pushFault_pins (f : FaultRecord) : (s.pushFault f).pins = s.pins := rfl
@[simp] theorem pushFault_free (f : FaultRecord) : (s.pushFault f).free = s.free := rfl
@[simp] theorem pushFault_group (f : FaultRecord) (h : GroupId) : (s.pushFault f).group h = s.group h := rfl
@[simp] theorem pushFault_quad (f : FaultRecord) (h : QuadId) : (s.pushFault f).quad h = s.quad h := rfl
@[simp] theorem pushFault_pass (f : FaultRecord) (h : GroupId) : (s.pushFault f).pass h = s.pass h := rfl
@[simp] theorem pushFault_bus (f : FaultRecord) (c : BusId) : (s.pushFault f).bus c = s.bus c := rfl
@[simp] theorem pushFault_route (f : FaultRecord) (c : Channel) : (s.pushFault f).route c = s.route c := rfl
@[simp] theorem pushFault_line (f : FaultRecord) (c : BusId) : (s.pushFault f).line c = s.line c := rfl

/-! What stays when a reply is made. -/

@[simp] theorem makeReply_pending (f : ReceivedFrame) (st : Status) (p : List Byte) : (s.makeReply f st p).pending = s.pending := rfl
@[simp] theorem makeReply_resetHeld (f : ReceivedFrame) (st : Status) (p : List Byte) : (s.makeReply f st p).resetHeld = s.resetHeld := rfl
@[simp] theorem makeReply_straps (f : ReceivedFrame) (st : Status) (p : List Byte) : (s.makeReply f st p).straps = s.straps := rfl
@[simp] theorem makeReply_lane (f : ReceivedFrame) (st : Status) (p : List Byte) : (s.makeReply f st p).lane = s.lane := rfl
@[simp] theorem makeReply_word (f : ReceivedFrame) (st : Status) (p : List Byte) : (s.makeReply f st p).word = s.word := rfl
@[simp] theorem makeReply_mix (f : ReceivedFrame) (st : Status) (p : List Byte) : (s.makeReply f st p).mix = s.mix := rfl
@[simp] theorem makeReply_cues (f : ReceivedFrame) (st : Status) (p : List Byte) : (s.makeReply f st p).cues = s.cues := rfl
@[simp] theorem makeReply_mem (f : ReceivedFrame) (st : Status) (p : List Byte) : (s.makeReply f st p).mem = s.mem := rfl
@[simp] theorem makeReply_faults (f : ReceivedFrame) (st : Status) (p : List Byte) : (s.makeReply f st p).faults = s.faults := rfl
@[simp] theorem makeReply_pins (f : ReceivedFrame) (st : Status) (p : List Byte) : (s.makeReply f st p).pins = s.pins := rfl
@[simp] theorem makeReply_free (f : ReceivedFrame) (st : Status) (p : List Byte) : (s.makeReply f st p).free = s.free := rfl
@[simp] theorem makeReply_requests (f : ReceivedFrame) (st : Status) (p : List Byte) : (s.makeReply f st p).link.requests = s.link.requests := rfl
@[simp] theorem makeReply_held (f : ReceivedFrame) (st : Status) (p : List Byte) : (s.makeReply f st p).link.held = s.link.held := rfl
@[simp] theorem makeReply_transfer (f : ReceivedFrame) (st : Status) (p : List Byte) : (s.makeReply f st p).link.transfer = s.link.transfer := rfl
@[simp] theorem makeReply_addressAck (f : ReceivedFrame) (st : Status) (p : List Byte) : (s.makeReply f st p).link.addressAck = s.link.addressAck := rfl
@[simp] theorem makeReply_notices (f : ReceivedFrame) (st : Status) (p : List Byte) : (s.makeReply f st p).link.notices = s.link.notices := rfl
@[simp] theorem makeReply_enable (f : ReceivedFrame) (st : Status) (p : List Byte) : (s.makeReply f st p).link.enable = s.link.enable := rfl
@[simp] theorem makeReply_twoLine (f : ReceivedFrame) (st : Status) (p : List Byte) : (s.makeReply f st p).link.twoLine = s.link.twoLine := rfl
@[simp] theorem makeReply_group (f : ReceivedFrame) (st : Status) (p : List Byte) (h : GroupId) : (s.makeReply f st p).group h = s.group h := rfl
@[simp] theorem makeReply_quad (f : ReceivedFrame) (st : Status) (p : List Byte) (h : QuadId) : (s.makeReply f st p).quad h = s.quad h := rfl
@[simp] theorem makeReply_pass (f : ReceivedFrame) (st : Status) (p : List Byte) (h : GroupId) : (s.makeReply f st p).pass h = s.pass h := rfl
@[simp] theorem makeReply_bus (f : ReceivedFrame) (st : Status) (p : List Byte) (c : BusId) : (s.makeReply f st p).bus c = s.bus c := rfl
@[simp] theorem makeReply_route (f : ReceivedFrame) (st : Status) (p : List Byte) (c : Channel) : (s.makeReply f st p).route c = s.route c := rfl
@[simp] theorem makeReply_line (f : ReceivedFrame) (st : Status) (p : List Byte) (c : BusId) : (s.makeReply f st p).line c = s.line c := rfl

/-! What stays when a frame is answered. -/

@[simp] theorem answered_pending (f : ReceivedFrame) (st : Status) (p : List Byte) : (s.answered f st p).pending = s.pending := rfl
@[simp] theorem answered_resetHeld (f : ReceivedFrame) (st : Status) (p : List Byte) : (s.answered f st p).resetHeld = s.resetHeld := rfl
@[simp] theorem answered_straps (f : ReceivedFrame) (st : Status) (p : List Byte) : (s.answered f st p).straps = s.straps := rfl
@[simp] theorem answered_lane (f : ReceivedFrame) (st : Status) (p : List Byte) : (s.answered f st p).lane = s.lane := rfl
@[simp] theorem answered_word (f : ReceivedFrame) (st : Status) (p : List Byte) : (s.answered f st p).word = s.word := rfl
@[simp] theorem answered_mix (f : ReceivedFrame) (st : Status) (p : List Byte) : (s.answered f st p).mix = s.mix := rfl
@[simp] theorem answered_cues (f : ReceivedFrame) (st : Status) (p : List Byte) : (s.answered f st p).cues = s.cues := rfl
@[simp] theorem answered_mem (f : ReceivedFrame) (st : Status) (p : List Byte) : (s.answered f st p).mem = s.mem := rfl
@[simp] theorem answered_faults (f : ReceivedFrame) (st : Status) (p : List Byte) : (s.answered f st p).faults = s.faults := rfl
@[simp] theorem answered_pins (f : ReceivedFrame) (st : Status) (p : List Byte) : (s.answered f st p).pins = s.pins := rfl
@[simp] theorem answered_free (f : ReceivedFrame) (st : Status) (p : List Byte) : (s.answered f st p).free = s.free := rfl
@[simp] theorem answered_group (f : ReceivedFrame) (st : Status) (p : List Byte) (h : GroupId) : (s.answered f st p).group h = s.group h := rfl
@[simp] theorem answered_quad (f : ReceivedFrame) (st : Status) (p : List Byte) (h : QuadId) : (s.answered f st p).quad h = s.quad h := rfl
@[simp] theorem answered_pass (f : ReceivedFrame) (st : Status) (p : List Byte) (h : GroupId) : (s.answered f st p).pass h = s.pass h := rfl
@[simp] theorem answered_bus (f : ReceivedFrame) (st : Status) (p : List Byte) (c : BusId) : (s.answered f st p).bus c = s.bus c := rfl
@[simp] theorem answered_route (f : ReceivedFrame) (st : Status) (p : List Byte) (c : Channel) : (s.answered f st p).route c = s.route c := rfl
@[simp] theorem answered_line (f : ReceivedFrame) (st : Status) (p : List Byte) (c : BusId) : (s.answered f st p).line c = s.line c := rfl

/-! What stays when capture registers are emptied. -/

@[simp] theorem emptyCapture_pending (ch : Channel → Bool) : (s.emptyCapture ch).pending = s.pending := by simp only [State.emptyCapture]
@[simp] theorem emptyCapture_resetHeld (ch : Channel → Bool) : (s.emptyCapture ch).resetHeld = s.resetHeld := by simp only [State.emptyCapture]
@[simp] theorem emptyCapture_straps (ch : Channel → Bool) : (s.emptyCapture ch).straps = s.straps := by simp only [State.emptyCapture]
@[simp] theorem emptyCapture_lane (ch : Channel → Bool) : (s.emptyCapture ch).lane = s.lane := by simp only [State.emptyCapture]
@[simp] theorem emptyCapture_mix (ch : Channel → Bool) : (s.emptyCapture ch).mix = s.mix := by simp only [State.emptyCapture]
@[simp] theorem emptyCapture_cues (ch : Channel → Bool) : (s.emptyCapture ch).cues = s.cues := by simp only [State.emptyCapture]
@[simp] theorem emptyCapture_mem (ch : Channel → Bool) : (s.emptyCapture ch).mem = s.mem := by simp only [State.emptyCapture]
@[simp] theorem emptyCapture_link (ch : Channel → Bool) : (s.emptyCapture ch).link = s.link := by simp only [State.emptyCapture]
@[simp] theorem emptyCapture_faults (ch : Channel → Bool) : (s.emptyCapture ch).faults = s.faults := by simp only [State.emptyCapture]
@[simp] theorem emptyCapture_pins (ch : Channel → Bool) : (s.emptyCapture ch).pins = s.pins := by simp only [State.emptyCapture]
@[simp] theorem emptyCapture_free (ch : Channel → Bool) : (s.emptyCapture ch).free = s.free := by simp only [State.emptyCapture]
@[simp] theorem emptyCapture_inSlot (ch : Channel → Bool) : (s.emptyCapture ch).word.inSlot = s.word.inSlot := by simp only [State.emptyCapture]
@[simp] theorem emptyCapture_outSlot (ch : Channel → Bool) : (s.emptyCapture ch).word.outSlot = s.word.outSlot := by simp only [State.emptyCapture]
@[simp] theorem emptyCapture_lastWord (ch : Channel → Bool) : (s.emptyCapture ch).word.lastWord = s.word.lastWord := by simp only [State.emptyCapture]
@[simp] theorem emptyCapture_settled (ch : Channel → Bool) : (s.emptyCapture ch).word.settled = s.word.settled := by simp only [State.emptyCapture]
@[simp] theorem emptyCapture_previous (ch : Channel → Bool) : (s.emptyCapture ch).word.previous = s.word.previous := by simp only [State.emptyCapture]
@[simp] theorem emptyCapture_firstFrame (ch : Channel → Bool) : (s.emptyCapture ch).word.firstFrame = s.word.firstFrame := by simp only [State.emptyCapture]
@[simp] theorem emptyCapture_group (ch : Channel → Bool) (h : GroupId) : (s.emptyCapture ch).group h = s.group h := by simp only [State.emptyCapture, State.group]
@[simp] theorem emptyCapture_quad (ch : Channel → Bool) (h : QuadId) : (s.emptyCapture ch).quad h = s.quad h := by simp only [State.emptyCapture, State.quad]
@[simp] theorem emptyCapture_pass (ch : Channel → Bool) (h : GroupId) : (s.emptyCapture ch).pass h = s.pass h := by simp only [State.emptyCapture, State.pass]
@[simp] theorem emptyCapture_bus (ch : Channel → Bool) (c : BusId) : (s.emptyCapture ch).bus c = s.bus c := by simp only [State.emptyCapture, State.bus]
@[simp] theorem emptyCapture_route (ch : Channel → Bool) (c : Channel) : (s.emptyCapture ch).route c = s.route c := by simp only [State.emptyCapture, State.route]
@[simp] theorem emptyCapture_line (ch : Channel → Bool) (c : BusId) : (s.emptyCapture ch).line c = s.line c := by simp only [State.emptyCapture, State.line]

/-! What stays when transmitted samples become zero. -/

@[simp] theorem silence_pending (ch : Channel → Bool) : (s.silence ch).pending = s.pending := by simp only [State.silence]
@[simp] theorem silence_resetHeld (ch : Channel → Bool) : (s.silence ch).resetHeld = s.resetHeld := by simp only [State.silence]
@[simp] theorem silence_straps (ch : Channel → Bool) : (s.silence ch).straps = s.straps := by simp only [State.silence]
@[simp] theorem silence_lane (ch : Channel → Bool) : (s.silence ch).lane = s.lane := by simp only [State.silence]
@[simp] theorem silence_mix (ch : Channel → Bool) : (s.silence ch).mix = s.mix := by simp only [State.silence]
@[simp] theorem silence_cues (ch : Channel → Bool) : (s.silence ch).cues = s.cues := by simp only [State.silence]
@[simp] theorem silence_mem (ch : Channel → Bool) : (s.silence ch).mem = s.mem := by simp only [State.silence]
@[simp] theorem silence_link (ch : Channel → Bool) : (s.silence ch).link = s.link := by simp only [State.silence]
@[simp] theorem silence_faults (ch : Channel → Bool) : (s.silence ch).faults = s.faults := by simp only [State.silence]
@[simp] theorem silence_pins (ch : Channel → Bool) : (s.silence ch).pins = s.pins := by simp only [State.silence]
@[simp] theorem silence_free (ch : Channel → Bool) : (s.silence ch).free = s.free := by simp only [State.silence]
@[simp] theorem silence_capture (ch : Channel → Bool) : (s.silence ch).word.capture = s.word.capture := by simp only [State.silence]
@[simp] theorem silence_inSlot (ch : Channel → Bool) : (s.silence ch).word.inSlot = s.word.inSlot := by simp only [State.silence]
@[simp] theorem silence_outSlot (ch : Channel → Bool) : (s.silence ch).word.outSlot = s.word.outSlot := by simp only [State.silence]
@[simp] theorem silence_lastWord (ch : Channel → Bool) : (s.silence ch).word.lastWord = s.word.lastWord := by simp only [State.silence]
@[simp] theorem silence_firstFrame (ch : Channel → Bool) : (s.silence ch).word.firstFrame = s.word.firstFrame := by simp only [State.silence]
@[simp] theorem silence_group (ch : Channel → Bool) (h : GroupId) : (s.silence ch).group h = s.group h := by simp only [State.silence, State.group]
@[simp] theorem silence_quad (ch : Channel → Bool) (h : QuadId) : (s.silence ch).quad h = s.quad h := by simp only [State.silence, State.quad]
@[simp] theorem silence_pass (ch : Channel → Bool) (h : GroupId) : (s.silence ch).pass h = s.pass h := by simp only [State.silence, State.pass]
@[simp] theorem silence_bus (ch : Channel → Bool) (c : BusId) : (s.silence ch).bus c = s.bus c := by simp only [State.silence, State.bus]
@[simp] theorem silence_route (ch : Channel → Bool) (c : Channel) : (s.silence ch).route c = s.route c := by simp only [State.silence, State.route]
@[simp] theorem silence_line (ch : Channel → Bool) (c : BusId) : (s.silence ch).line c = s.line c := by simp only [State.silence, State.line]

/-! What stays when output slots are cleared. -/

@[simp] theorem clearOutputs_pending (ch : Channel → Bool) : (s.clearOutputs ch).pending = s.pending := by simp only [State.clearOutputs]
@[simp] theorem clearOutputs_resetHeld (ch : Channel → Bool) : (s.clearOutputs ch).resetHeld = s.resetHeld := by simp only [State.clearOutputs]
@[simp] theorem clearOutputs_straps (ch : Channel → Bool) : (s.clearOutputs ch).straps = s.straps := by simp only [State.clearOutputs]
@[simp] theorem clearOutputs_lane (ch : Channel → Bool) : (s.clearOutputs ch).lane = s.lane := by simp only [State.clearOutputs]
@[simp] theorem clearOutputs_mix (ch : Channel → Bool) : (s.clearOutputs ch).mix = s.mix := by simp only [State.clearOutputs]
@[simp] theorem clearOutputs_cues (ch : Channel → Bool) : (s.clearOutputs ch).cues = s.cues := by simp only [State.clearOutputs]
@[simp] theorem clearOutputs_mem (ch : Channel → Bool) : (s.clearOutputs ch).mem = s.mem := by simp only [State.clearOutputs]
@[simp] theorem clearOutputs_link (ch : Channel → Bool) : (s.clearOutputs ch).link = s.link := by simp only [State.clearOutputs]
@[simp] theorem clearOutputs_faults (ch : Channel → Bool) : (s.clearOutputs ch).faults = s.faults := by simp only [State.clearOutputs]
@[simp] theorem clearOutputs_pins (ch : Channel → Bool) : (s.clearOutputs ch).pins = s.pins := by simp only [State.clearOutputs]
@[simp] theorem clearOutputs_free (ch : Channel → Bool) : (s.clearOutputs ch).free = s.free := by simp only [State.clearOutputs]
@[simp] theorem clearOutputs_capture (ch : Channel → Bool) : (s.clearOutputs ch).word.capture = s.word.capture := by simp only [State.clearOutputs]
@[simp] theorem clearOutputs_inSlot (ch : Channel → Bool) : (s.clearOutputs ch).word.inSlot = s.word.inSlot := by simp only [State.clearOutputs]
@[simp] theorem clearOutputs_settled (ch : Channel → Bool) : (s.clearOutputs ch).word.settled = s.word.settled := by simp only [State.clearOutputs]
@[simp] theorem clearOutputs_previous (ch : Channel → Bool) : (s.clearOutputs ch).word.previous = s.word.previous := by simp only [State.clearOutputs]
@[simp] theorem clearOutputs_firstFrame (ch : Channel → Bool) : (s.clearOutputs ch).word.firstFrame = s.word.firstFrame := by simp only [State.clearOutputs]
@[simp] theorem clearOutputs_group (ch : Channel → Bool) (h : GroupId) : (s.clearOutputs ch).group h = s.group h := by simp only [State.clearOutputs, State.group]
@[simp] theorem clearOutputs_quad (ch : Channel → Bool) (h : QuadId) : (s.clearOutputs ch).quad h = s.quad h := by simp only [State.clearOutputs, State.quad]
@[simp] theorem clearOutputs_pass (ch : Channel → Bool) (h : GroupId) : (s.clearOutputs ch).pass h = s.pass h := by simp only [State.clearOutputs, State.pass]
@[simp] theorem clearOutputs_bus (ch : Channel → Bool) (c : BusId) : (s.clearOutputs ch).bus c = s.bus c := by simp only [State.clearOutputs, State.bus]
@[simp] theorem clearOutputs_route (ch : Channel → Bool) (c : Channel) : (s.clearOutputs ch).route c = s.route c := by simp only [State.clearOutputs, State.route]
@[simp] theorem clearOutputs_line (ch : Channel → Bool) (c : BusId) : (s.clearOutputs ch).line c = s.line c := by simp only [State.clearOutputs, State.line]

/-! ### What an update leaves where it writes -/

@[simp] theorem setGroup_group_self (g : GroupId) (G : ClockGroup) : (s.setGroup g G).group g = G := by
  cases g <;> rfl

theorem setGroup_group (g h : GroupId) (G : ClockGroup) : (s.setGroup g G).group h = if h = g then G else s.group h := by
  cases g <;> cases h <;> rfl

@[simp] theorem setQuad_quad_self (q : QuadId) (Q : Quad) : (s.setQuad q Q).quad q = Q := by
  cases q <;> rfl

theorem setQuad_quad (q r : QuadId) (Q : Quad) : (s.setQuad q Q).quad r = if r = q then Q else s.quad r := by
  cases q <;> cases r <;> rfl

@[simp] theorem setPass_pass_self (g : GroupId) (p : Option Pass) : (s.setPass g p).pass g = p := by
  cases g <;> rfl

theorem setPass_pass (g h : GroupId) (p : Option Pass) : (s.setPass g p).pass h = if h = g then p else s.pass h := by
  cases g <;> cases h <;> rfl

@[simp] theorem modifyBus_bus_self (b : BusId) (f : BusRecord → BusRecord) : (s.modifyBus b f).bus b = f (s.bus b) := by
  simp [State.bus, State.modifyBus]

theorem modifyBus_bus (b c : BusId) (f : BusRecord → BusRecord) :
    (s.modifyBus b f).bus c = if c = b then f (s.bus b) else s.bus c := by
  by_cases h : c = b
  · subst h; simp
  · have : b.val ≠ c.val := fun e => h (Fin.ext e.symm)
    simp [State.bus, State.modifyBus, h, this]

@[simp] theorem setXp_xp (xp : List Entry) : (s.setXp xp).mix.xp = xp := rfl

@[simp] theorem setLine_line_self (b : BusId) (l : Option Line) : (s.setLine b l).line b = l := by
  simp [State.line, State.setLine]

theorem setLine_line (b c : BusId) (l : Option Line) : (s.setLine b l).line c = if c = b then l else s.line c := by
  by_cases h : c = b
  · subst h; simp
  · have : b.val ≠ c.val := fun e => h (Fin.ext e.symm)
    simp [State.line, State.setLine, h, this]

theorem setPin_pin (k j : PinId) (p : GeneralPin) : (s.setPin k p).pins[j] = if j = k then p else s.pins[j] := by
  by_cases h : j = k
  · subst h; simp [State.setPin]
  · have : k.val ≠ j.val := fun e => h (Fin.ext e.symm)
    simp [State.setPin, h, this]

@[simp] theorem modifyCue_cues (x : Byte) (f : Cue → Cue) :
    (s.modifyCue x f).cues = s.cues.map fun c => if c.tag = x then f c else c := rfl

@[simp] theorem occur_link (cls : NoticeClass) (p : NoticePayload) : (s.occur cls p).link = s.link.occur cls p := rfl

@[simp] theorem pushFault_link (f : FaultRecord) : (s.pushFault f).link = s.link.occur .fault .live := rfl

@[simp] theorem pushFault_faults (f : FaultRecord) : (s.pushFault f).faults = pushRecord f s.faults := rfl

@[simp] theorem answered_link (f : ReceivedFrame) (st : Status) (p : List Byte) : (s.answered f st p).link = s.link.answered f st p := rfl

/-! ### What a derived function reads -/

section
variable {s} {t : State}

theorem group_congr (h : t.lane = s.lane) (g : GroupId) : t.group g = s.group g := by simp [State.group, h]

theorem quad_congr (h : t.lane = s.lane) (q : QuadId) : t.quad q = s.quad q := by simp [State.quad, h]

theorem bJoined_congr (h : t.lane = s.lane) : t.bJoined = s.bJoined := by simp [State.bJoined, quad_congr h]

theorem groupOfChannel_congr (h : t.lane = s.lane) (c : Channel) : t.groupOfChannel c = s.groupOfChannel c := by
  simp [State.groupOfChannel, State.groupOfQuad, bJoined_congr h]

theorem channelLane_congr (h : t.lane = s.lane) (c : Channel) : t.channelLane c = s.channelLane c := by
  simp [State.channelLane, quad_congr h]

theorem isInput_congr (h : t.lane = s.lane) (c : Channel) : t.isInput c = s.isInput c := by
  simp [State.isInput, channelLane_congr h]

theorem isOutput_congr (h : t.lane = s.lane) (c : Channel) : t.isOutput c = s.isOutput c := by
  simp [State.isOutput, channelLane_congr h]

theorem isInputOf_congr (h : t.lane = s.lane) (g : GroupId) (c : Channel) : t.isInputOf g c = s.isInputOf g c := by
  simp [State.isInputOf, isInput_congr h, groupOfChannel_congr h]

theorem isOutputOf_congr (h : t.lane = s.lane) (g : GroupId) (c : Channel) : t.isOutputOf g c = s.isOutputOf g c := by
  simp [State.isOutputOf, isOutput_congr h, groupOfChannel_congr h]

theorem pass_congr (h : t.mix = s.mix) (g : GroupId) : t.pass g = s.pass g := by simp [State.pass, h]

theorem bus_congr (h : t.mix = s.mix) (b : BusId) : t.bus b = s.bus b := by simp [State.bus, h]

theorem route_congr (h : t.mix = s.mix) (c : Channel) : t.route c = s.route c := by simp [State.route, h]

theorem line_congr (h : t.mem = s.mem) (b : BusId) : t.line b = s.line b := by simp [State.line, h]

theorem findCue_congr (h : t.cues = s.cues) (x : Byte) : t.findCue x = s.findCue x := by simp [State.findCue, h]

theorem poolUsed_congr (h : t.cues = s.cues) : t.poolUsed = s.poolUsed := by simp [State.poolUsed, h]

end

end Sys2Proof.Machine
end

