-- ==== Sys2Proof/Laws/Memory.lean ====
section
/-! SUPPORT. The DRAM's words: what a read answers after a write, and that every operation keeps the canonical form (log 9). -/

namespace Sys2Proof.Machine

namespace Memory

theorem find_write_self (m : Memory) (a : Nat) (w : DramWord) : find (write m a w) a = some w := by
  induction m with
  | nil => simp [write, find]
  | cons e rest ih =>
    simp only [write]
    split
    · simp [find]
    · split
      · simp [find]
      · rename_i h; simp [find, Ne.symm h, ih]

theorem find_write_ne (m : Memory) {a c : Nat} (w : DramWord) (h : c ≠ a) : find (write m a w) c = find m c := by
  induction m with
  | nil => simp [write, find, h.symm]
  | cons e rest ih =>
    simp only [write]
    split
    · simp [find, h.symm]
    · split
      · rename_i h2; subst h2; simp [find, h.symm]
      · simp only [find, ih]

/-- A word reads as it was last written. -/
@[simp] theorem read_write_self (m : Memory) (a : Nat) (w : DramWord) : read (write m a w) a = w := by
  simp [read, find_write_self]

/-- A write leaves every other word as it was. -/
theorem read_write_ne (m : Memory) {a c : Nat} (w : DramWord) (h : c ≠ a) : read (write m a w) c = read m c := by
  simp [read, find_write_ne m w h]

theorem read_write (m : Memory) (a c : Nat) (w : DramWord) : read (write m a w) c = if c = a then w else read m c := by
  split
  · rename_i h; subst h; simp
  · rename_i h; exact read_write_ne m w h

theorem wf_cons (a : Nat) (v : DramWord) (m : Memory) :
    wf ((a, v) :: m) = true ↔ (∀ e ∈ m.head?, a < e.1) ∧ wf m = true := by
  cases m with
  | nil => simp [wf]
  | cons e rest => simp [wf]

theorem head?_write (m : Memory) (a : Nat) (w : DramWord) :
    ∀ e ∈ (write m a w).head?, e.1 = a ∨ ∃ d ∈ m.head?, d.1 = e.1 := by
  cases m with
  | nil => simp [write]
  | cons d rest =>
    simp only [write]
    split
    · simp
    · split <;> simp

/-- A write keeps the canonical form. -/
theorem wf_write (m : Memory) (a : Nat) (w : DramWord) (h : wf m = true) : wf (write m a w) = true := by
  induction m with
  | nil => rfl
  | cons d rest ih =>
    obtain ⟨b, v⟩ := d
    rw [wf_cons] at h
    simp only [write]
    split
    · rename_i hlt
      rw [wf_cons, wf_cons]
      exact ⟨by simpa using hlt, h⟩
    · split
      · rename_i h2; subst h2
        rw [wf_cons]; exact h
      · rename_i h1 h2
        rw [wf_cons]
        refine ⟨fun e he => ?_, ih h.2⟩
        rcases head?_write rest a w e he with h3 | ⟨d, hd, h3⟩
        · omega
        · have := h.1 d hd; omega

/-- Memory with nothing listed is in canonical form. -/
theorem wf_empty : wf [] = true := rfl

end Memory

/-- The words a hardware reset leaves are in canonical form (R141). -/
theorem abandon_wf (m : MemoryPort) (n : Nat) (h : Memory.wf m.dram = true) : Memory.wf (m.abandon n) = true := by
  unfold MemoryPort.abandon
  split
  · exact Memory.wf_write _ _ _ h
  · exact h

/-- The reset state's memory is in canonical form. -/
theorem reset_memory_wf : Memory.wf State.reset.mem.dram = true := rfl

/-! ### The arbiter -/

/-- The arbiter chooses among the queues and touches nothing else of the memory port. -/
theorem arbitrate_frame (m : MemoryPort) :
    m.arbitrate.lines = m.lines ∧ m.arbitrate.clearing = m.clearing ∧ m.arbitrate.readWait = m.readWait ∧
    m.arbitrate.writeWait = m.writeWait ∧ m.arbitrate.dram = m.dram := by
  unfold MemoryPort.arbitrate MemoryPort.chooseQueued MemoryPort.beginRead MemoryPort.beginWrite
  repeat' split
  all_goals simp

@[simp] theorem arbitrate_lines (m : MemoryPort) : m.arbitrate.lines = m.lines := (arbitrate_frame m).1
@[simp] theorem arbitrate_clearing (m : MemoryPort) : m.arbitrate.clearing = m.clearing := (arbitrate_frame m).2.1
@[simp] theorem arbitrate_readWait (m : MemoryPort) : m.arbitrate.readWait = m.readWait := (arbitrate_frame m).2.2.1
@[simp] theorem arbitrate_writeWait (m : MemoryPort) : m.arbitrate.writeWait = m.writeWait := (arbitrate_frame m).2.2.2.1
@[simp] theorem arbitrate_dram (m : MemoryPort) : m.arbitrate.dram = m.dram := (arbitrate_frame m).2.2.2.2

/-- Everything the arbiter's choice can be: nothing, a refresh, a queued read or the oldest write (R127, R136). -/
theorem arbitrate_cases (m : MemoryPort) :
    m.arbitrate = m ∨ (m.access = none ∧ m.arbitrate = { m with access := some .refresh, refreshDue := false }) ∨
    (m.access = none ∧ ∃ r ∈ m.readQ, m.arbitrate = m.beginRead r) ∨
    (m.access = none ∧ ∃ w ws, m.writeQ = w :: ws ∧ m.arbitrate = m.beginWrite w) := by
  unfold MemoryPort.arbitrate
  split
  · exact .inl rfl
  · rename_i ha
    split
    · exact .inr (.inl ⟨ha, rfl⟩)
    · unfold MemoryPort.chooseQueued
      split
      · rename_i rs w ws hw
        split
        · split
          · rename_i r hr
            exact .inr (.inr (.inl ⟨ha, r, List.mem_of_find?_eq_some hr, rfl⟩))
          · exact .inr (.inr (.inr ⟨ha, w, ws, hw, rfl⟩))
        · split
          · rename_i r rs' hr
            exact .inr (.inr (.inl ⟨ha, r, by simp [hr], rfl⟩))
          · exact .inr (.inr (.inr ⟨ha, w, ws, hw, rfl⟩))
      · rename_i r rs hw hr
        exact .inr (.inr (.inl ⟨ha, r, by simp [hr], rfl⟩))
      · exact .inl rfl

end Sys2Proof.Machine
end

