-- ==== Sys2Proof/Laws/Frames.lean ====
section
/-! SUPPORT. One lemma for each shared operation that says everything it leaves alone. -/

namespace Sys2Proof.Machine

/-- A projection that no step of a fold changes is unchanged by the fold. -/
theorem foldl_proj {α β γ : Type} (f : β → α → β) (proj : β → γ) (h : ∀ b a, proj (f b a) = proj b) (l : List α) (b : β) :
    proj (l.foldl f b) = proj b := by
  induction l generalizing b with
  | nil => rfl
  | cons a rest ih => simp only [List.foldl_cons, ih, h]

/-- An occurrence reaches the notices and the transfer in progress alone (R157). -/
@[simp] theorem Link.occur_frame (l : Link) (cls : NoticeClass) (p : NoticePayload) :
    (l.occur cls p).requests = l.requests ∧ (l.occur cls p).replies = l.replies ∧ (l.occur cls p).overrun = l.overrun ∧
    (l.occur cls p).held = l.held ∧ (l.occur cls p).addressAck = l.addressAck ∧ (l.occur cls p).enable = l.enable ∧
    (l.occur cls p).twoLine = l.twoLine := by
  unfold Link.occur; split <;> simp

/-- A notice that leaves the notice set reaches the held frame and the transfer in progress besides (R159). -/
@[simp] theorem Link.dropNotice_frame (l : Link) (cls : NoticeClass) :
    (l.dropNotice cls).requests = l.requests ∧ (l.dropNotice cls).replies = l.replies ∧ (l.dropNotice cls).overrun = l.overrun ∧
    (l.dropNotice cls).addressAck = l.addressAck ∧ (l.dropNotice cls).enable = l.enable ∧ (l.dropNotice cls).twoLine = l.twoLine :=
  ⟨rfl, rfl, rfl, rfl, rfl, rfl⟩

variable (s : State)

/-- What `State.raiseEntries` leaves alone. -/
@[simp] theorem raiseEntries_frame (b : BusId) :
    (s.raiseEntries b).pending = s.pending ∧ (s.raiseEntries b).resetHeld = s.resetHeld ∧ (s.raiseEntries b).straps = s.straps ∧
    (s.raiseEntries b).lane = s.lane ∧ (s.raiseEntries b).word = s.word ∧ (s.raiseEntries b).mix.xp = s.mix.xp ∧
    (s.raiseEntries b).mix.routes = s.mix.routes ∧ (s.raiseEntries b).mix.passes = s.mix.passes ∧
    (s.raiseEntries b).cues = s.cues ∧ (s.raiseEntries b).mem = s.mem ∧ (s.raiseEntries b).link = s.link ∧
    (s.raiseEntries b).faults = s.faults ∧ (s.raiseEntries b).pins = s.pins ∧ (s.raiseEntries b).free = s.free := by
  simp [State.raiseEntries]

/-- What `State.lowerEntries` leaves alone. -/
@[simp] theorem lowerEntries_frame (b : BusId) :
    (s.lowerEntries b).pending = s.pending ∧ (s.lowerEntries b).resetHeld = s.resetHeld ∧ (s.lowerEntries b).straps = s.straps ∧
    (s.lowerEntries b).lane = s.lane ∧ (s.lowerEntries b).word = s.word ∧ (s.lowerEntries b).mix.xp = s.mix.xp ∧
    (s.lowerEntries b).mix.routes = s.mix.routes ∧ (s.lowerEntries b).mix.passes = s.mix.passes ∧
    (s.lowerEntries b).cues = s.cues ∧ (s.lowerEntries b).mem = s.mem ∧ (s.lowerEntries b).link = s.link ∧
    (s.lowerEntries b).faults = s.faults ∧ (s.lowerEntries b).pins = s.pins ∧ (s.lowerEntries b).free = s.free := by
  simp [State.lowerEntries]

/-- What `State.takeHolds` leaves alone. -/
@[simp] theorem takeHolds_frame (es : List Edit) :
    (s.takeHolds es).pending = s.pending ∧ (s.takeHolds es).resetHeld = s.resetHeld ∧ (s.takeHolds es).straps = s.straps ∧
    (s.takeHolds es).lane = s.lane ∧ (s.takeHolds es).word = s.word ∧ (s.takeHolds es).mix.xp = s.mix.xp ∧
    (s.takeHolds es).mix.routes = s.mix.routes ∧ (s.takeHolds es).mix.passes = s.mix.passes ∧ (s.takeHolds es).cues = s.cues ∧
    (s.takeHolds es).mem = s.mem ∧ (s.takeHolds es).link = s.link ∧ (s.takeHolds es).faults = s.faults ∧
    (s.takeHolds es).pins = s.pins ∧ (s.takeHolds es).free = s.free := by
  unfold State.takeHolds
  exact ⟨(foldl_proj _ (fun t : State => t.pending) (fun t e => by simp) _ _),
    (foldl_proj _ (fun t : State => t.resetHeld) (fun t e => by simp) _ _),
    (foldl_proj _ (fun t : State => t.straps) (fun t e => by simp) _ _),
    (foldl_proj _ (fun t : State => t.lane) (fun t e => by simp) _ _),
    (foldl_proj _ (fun t : State => t.word) (fun t e => by simp) _ _),
    (foldl_proj _ (fun t : State => t.mix.xp) (fun t e => by simp) _ _),
    (foldl_proj _ (fun t : State => t.mix.routes) (fun t e => by simp) _ _),
    (foldl_proj _ (fun t : State => t.mix.passes) (fun t e => by simp) _ _),
    (foldl_proj _ (fun t : State => t.cues) (fun t e => by simp) _ _),
    (foldl_proj _ (fun t : State => t.mem) (fun t e => by simp) _ _),
    (foldl_proj _ (fun t : State => t.link) (fun t e => by simp) _ _),
    (foldl_proj _ (fun t : State => t.faults) (fun t e => by simp) _ _),
    (foldl_proj _ (fun t : State => t.pins) (fun t e => by simp) _ _),
    (foldl_proj _ (fun t : State => t.free) (fun t e => by simp) _ _)⟩

/-- What `State.releaseHolds` leaves alone. -/
@[simp] theorem releaseHolds_frame (es : List Edit) :
    (s.releaseHolds es).pending = s.pending ∧ (s.releaseHolds es).resetHeld = s.resetHeld ∧ (s.releaseHolds es).straps = s.straps ∧
    (s.releaseHolds es).lane = s.lane ∧ (s.releaseHolds es).word = s.word ∧ (s.releaseHolds es).mix.xp = s.mix.xp ∧
    (s.releaseHolds es).mix.routes = s.mix.routes ∧ (s.releaseHolds es).mix.passes = s.mix.passes ∧
    (s.releaseHolds es).cues = s.cues ∧ (s.releaseHolds es).mem = s.mem ∧ (s.releaseHolds es).link = s.link ∧
    (s.releaseHolds es).faults = s.faults ∧ (s.releaseHolds es).pins = s.pins ∧ (s.releaseHolds es).free = s.free := by
  unfold State.releaseHolds
  exact ⟨(foldl_proj _ (fun t : State => t.pending) (fun t e => by simp) _ _),
    (foldl_proj _ (fun t : State => t.resetHeld) (fun t e => by simp) _ _),
    (foldl_proj _ (fun t : State => t.straps) (fun t e => by simp) _ _),
    (foldl_proj _ (fun t : State => t.lane) (fun t e => by simp) _ _),
    (foldl_proj _ (fun t : State => t.word) (fun t e => by simp) _ _),
    (foldl_proj _ (fun t : State => t.mix.xp) (fun t e => by simp) _ _),
    (foldl_proj _ (fun t : State => t.mix.routes) (fun t e => by simp) _ _),
    (foldl_proj _ (fun t : State => t.mix.passes) (fun t e => by simp) _ _),
    (foldl_proj _ (fun t : State => t.cues) (fun t e => by simp) _ _),
    (foldl_proj _ (fun t : State => t.mem) (fun t e => by simp) _ _),
    (foldl_proj _ (fun t : State => t.link) (fun t e => by simp) _ _),
    (foldl_proj _ (fun t : State => t.faults) (fun t e => by simp) _ _),
    (foldl_proj _ (fun t : State => t.pins) (fun t e => by simp) _ _),
    (foldl_proj _ (fun t : State => t.free) (fun t e => by simp) _ _)⟩

/-- What `State.lowerOwned` leaves alone. -/
@[simp] theorem lowerOwned_frame (o : Option BusId) :
    (s.lowerOwned o).pending = s.pending ∧ (s.lowerOwned o).resetHeld = s.resetHeld ∧ (s.lowerOwned o).straps = s.straps ∧
    (s.lowerOwned o).lane = s.lane ∧ (s.lowerOwned o).word = s.word ∧ (s.lowerOwned o).mix.xp = s.mix.xp ∧
    (s.lowerOwned o).mix.routes = s.mix.routes ∧ (s.lowerOwned o).mix.passes = s.mix.passes ∧ (s.lowerOwned o).cues = s.cues ∧
    (s.lowerOwned o).mem = s.mem ∧ (s.lowerOwned o).link = s.link ∧ (s.lowerOwned o).faults = s.faults ∧
    (s.lowerOwned o).pins = s.pins ∧ (s.lowerOwned o).free = s.free := by
  cases o <;> simp [State.lowerOwned]

/-- What `State.raiseOwned` leaves alone. -/
@[simp] theorem raiseOwned_frame (o : Option BusId) :
    (s.raiseOwned o).pending = s.pending ∧ (s.raiseOwned o).resetHeld = s.resetHeld ∧ (s.raiseOwned o).straps = s.straps ∧
    (s.raiseOwned o).lane = s.lane ∧ (s.raiseOwned o).word = s.word ∧ (s.raiseOwned o).mix.xp = s.mix.xp ∧
    (s.raiseOwned o).mix.routes = s.mix.routes ∧ (s.raiseOwned o).mix.passes = s.mix.passes ∧ (s.raiseOwned o).cues = s.cues ∧
    (s.raiseOwned o).mem = s.mem ∧ (s.raiseOwned o).link = s.link ∧ (s.raiseOwned o).faults = s.faults ∧
    (s.raiseOwned o).pins = s.pins ∧ (s.raiseOwned o).free = s.free := by
  cases o <;> simp [State.raiseOwned]

/-- A route change reaches the route table and the bus counts alone (R55). -/
@[simp] theorem setRoute_frame (c : Channel) (r : Route) :
    (s.setRoute c r).pending = s.pending ∧ (s.setRoute c r).resetHeld = s.resetHeld ∧ (s.setRoute c r).straps = s.straps ∧
    (s.setRoute c r).lane = s.lane ∧ (s.setRoute c r).word = s.word ∧ (s.setRoute c r).mix.xp = s.mix.xp ∧
    (s.setRoute c r).mix.passes = s.mix.passes ∧ (s.setRoute c r).cues = s.cues ∧ (s.setRoute c r).mem = s.mem ∧
    (s.setRoute c r).link = s.link ∧ (s.setRoute c r).faults = s.faults ∧ (s.setRoute c r).pins = s.pins ∧
    (s.setRoute c r).free = s.free := by
  simp [State.setRoute]

/-- A completion reaches the cue list and the notice set alone (R100). -/
@[simp] theorem completeCue_frame (x : Byte) :
    (s.completeCue x).pending = s.pending ∧ (s.completeCue x).resetHeld = s.resetHeld ∧ (s.completeCue x).straps = s.straps ∧
    (s.completeCue x).lane = s.lane ∧ (s.completeCue x).word = s.word ∧ (s.completeCue x).mix = s.mix ∧
    (s.completeCue x).mem = s.mem ∧ (s.completeCue x).link.requests = s.link.requests ∧
    (s.completeCue x).link.replies = s.link.replies ∧ (s.completeCue x).link.overrun = s.link.overrun ∧
    (s.completeCue x).link.held = s.link.held ∧ (s.completeCue x).link.addressAck = s.link.addressAck ∧
    (s.completeCue x).link.enable = s.link.enable ∧ (s.completeCue x).link.twoLine = s.link.twoLine ∧
    (s.completeCue x).faults = s.faults ∧ (s.completeCue x).pins = s.pins ∧ (s.completeCue x).free = s.free := by
  unfold State.completeCue; repeat' split
  all_goals simp

/-- What `State.raiseRamps` leaves alone. -/
@[simp] theorem raiseRamps_frame (x : Byte) :
    (s.raiseRamps x).pending = s.pending ∧ (s.raiseRamps x).resetHeld = s.resetHeld ∧ (s.raiseRamps x).straps = s.straps ∧
    (s.raiseRamps x).lane = s.lane ∧ (s.raiseRamps x).word = s.word ∧ (s.raiseRamps x).mix = s.mix ∧ (s.raiseRamps x).mem = s.mem ∧
    (s.raiseRamps x).link = s.link ∧ (s.raiseRamps x).faults = s.faults ∧ (s.raiseRamps x).pins = s.pins ∧
    (s.raiseRamps x).free = s.free := by
  simp [State.raiseRamps]

/-- What `State.lowerRamps` leaves alone. -/
@[simp] theorem lowerRamps_frame (x : Byte) (may : Bool) :
    (s.lowerRamps x may).pending = s.pending ∧ (s.lowerRamps x may).resetHeld = s.resetHeld ∧
    (s.lowerRamps x may).straps = s.straps ∧ (s.lowerRamps x may).lane = s.lane ∧ (s.lowerRamps x may).word = s.word ∧
    (s.lowerRamps x may).mix = s.mix ∧ (s.lowerRamps x may).mem = s.mem ∧ (s.lowerRamps x may).link.requests = s.link.requests ∧
    (s.lowerRamps x may).link.replies = s.link.replies ∧ (s.lowerRamps x may).link.overrun = s.link.overrun ∧
    (s.lowerRamps x may).link.held = s.link.held ∧ (s.lowerRamps x may).link.addressAck = s.link.addressAck ∧
    (s.lowerRamps x may).link.enable = s.link.enable ∧ (s.lowerRamps x may).link.twoLine = s.link.twoLine ∧
    (s.lowerRamps x may).faults = s.faults ∧ (s.lowerRamps x may).pins = s.pins ∧ (s.lowerRamps x may).free = s.free := by
  unfold State.lowerRamps; dsimp only; repeat' split
  all_goals simp

/-- A ramp that is gone reaches the cue list and the notice set alone (R50). -/
@[simp] theorem loseRamp_frame (e : Entry) (x : Option Byte) :
    (s.loseRamp e x).pending = s.pending ∧ (s.loseRamp e x).resetHeld = s.resetHeld ∧ (s.loseRamp e x).straps = s.straps ∧
    (s.loseRamp e x).lane = s.lane ∧ (s.loseRamp e x).word = s.word ∧ (s.loseRamp e x).mix = s.mix ∧ (s.loseRamp e x).mem = s.mem ∧
    (s.loseRamp e x).link.requests = s.link.requests ∧ (s.loseRamp e x).link.replies = s.link.replies ∧
    (s.loseRamp e x).link.overrun = s.link.overrun ∧ (s.loseRamp e x).link.held = s.link.held ∧
    (s.loseRamp e x).link.addressAck = s.link.addressAck ∧ (s.loseRamp e x).link.enable = s.link.enable ∧
    (s.loseRamp e x).link.twoLine = s.link.twoLine ∧ (s.loseRamp e x).faults = s.faults ∧ (s.loseRamp e x).pins = s.pins ∧
    (s.loseRamp e x).free = s.free := by
  unfold State.loseRamp; repeat' split
  all_goals simp

/-- An entry that is removed reaches its bus's count, the table, and what its ramp's owner does (R50). -/
@[simp] theorem removeEntry_frame (e : Entry) (x : Option Byte) :
    (s.removeEntry e x).pending = s.pending ∧ (s.removeEntry e x).resetHeld = s.resetHeld ∧ (s.removeEntry e x).straps = s.straps ∧
    (s.removeEntry e x).lane = s.lane ∧ (s.removeEntry e x).word = s.word ∧ (s.removeEntry e x).mix.routes = s.mix.routes ∧
    (s.removeEntry e x).mix.passes = s.mix.passes ∧ (s.removeEntry e x).mem = s.mem ∧
    (s.removeEntry e x).link.requests = s.link.requests ∧ (s.removeEntry e x).link.replies = s.link.replies ∧
    (s.removeEntry e x).link.overrun = s.link.overrun ∧ (s.removeEntry e x).link.held = s.link.held ∧
    (s.removeEntry e x).link.addressAck = s.link.addressAck ∧ (s.removeEntry e x).link.enable = s.link.enable ∧
    (s.removeEntry e x).link.twoLine = s.link.twoLine ∧ (s.removeEntry e x).faults = s.faults ∧ (s.removeEntry e x).pins = s.pins ∧
    (s.removeEntry e x).free = s.free := by
  simp [State.removeEntry]

/-- What `State.putEntry` leaves alone. -/
@[simp] theorem putEntry_frame (e : Entry) :
    (s.putEntry e).pending = s.pending ∧ (s.putEntry e).resetHeld = s.resetHeld ∧ (s.putEntry e).straps = s.straps ∧
    (s.putEntry e).lane = s.lane ∧ (s.putEntry e).word = s.word ∧ (s.putEntry e).mix.buses = s.mix.buses ∧
    (s.putEntry e).mix.routes = s.mix.routes ∧ (s.putEntry e).mix.passes = s.mix.passes ∧ (s.putEntry e).cues = s.cues ∧
    (s.putEntry e).mem = s.mem ∧ (s.putEntry e).link = s.link ∧ (s.putEntry e).faults = s.faults ∧ (s.putEntry e).pins = s.pins ∧
    (s.putEntry e).free = s.free := by
  simp [State.putEntry]

/-- What `State.ownRamp` leaves alone. -/
@[simp] theorem ownRamp_frame (x : CueContext) :
    (s.ownRamp x).pending = s.pending ∧ (s.ownRamp x).resetHeld = s.resetHeld ∧ (s.ownRamp x).straps = s.straps ∧
    (s.ownRamp x).lane = s.lane ∧ (s.ownRamp x).word = s.word ∧ (s.ownRamp x).mix = s.mix ∧ (s.ownRamp x).mem = s.mem ∧
    (s.ownRamp x).link = s.link ∧ (s.ownRamp x).faults = s.faults ∧ (s.ownRamp x).pins = s.pins ∧ (s.ownRamp x).free = s.free := by
  unfold State.ownRamp; repeat' split
  all_goals simp

/-- What `State.applyGain` leaves alone. -/
@[simp] theorem applyGain_frame (x : CueContext) (c : Channel) (b : BusId) (t : Gain) :
    (s.applyGain x c b t).pending = s.pending ∧ (s.applyGain x c b t).resetHeld = s.resetHeld ∧
    (s.applyGain x c b t).straps = s.straps ∧ (s.applyGain x c b t).lane = s.lane ∧ (s.applyGain x c b t).word = s.word ∧
    (s.applyGain x c b t).mix.routes = s.mix.routes ∧ (s.applyGain x c b t).mix.passes = s.mix.passes ∧
    (s.applyGain x c b t).mem = s.mem ∧ (s.applyGain x c b t).link.requests = s.link.requests ∧
    (s.applyGain x c b t).link.replies = s.link.replies ∧ (s.applyGain x c b t).link.overrun = s.link.overrun ∧
    (s.applyGain x c b t).link.held = s.link.held ∧ (s.applyGain x c b t).link.addressAck = s.link.addressAck ∧
    (s.applyGain x c b t).link.enable = s.link.enable ∧ (s.applyGain x c b t).link.twoLine = s.link.twoLine ∧
    (s.applyGain x c b t).pins = s.pins ∧ (s.applyGain x c b t).free = s.free := by
  unfold State.applyGain; repeat' split
  all_goals simp

/-- What `State.applyDrop` leaves alone. -/
@[simp] theorem applyDrop_frame (x : CueContext) (c : Channel) (b : BusId) :
    (s.applyDrop x c b).pending = s.pending ∧ (s.applyDrop x c b).resetHeld = s.resetHeld ∧ (s.applyDrop x c b).straps = s.straps ∧
    (s.applyDrop x c b).lane = s.lane ∧ (s.applyDrop x c b).word = s.word ∧ (s.applyDrop x c b).mix.routes = s.mix.routes ∧
    (s.applyDrop x c b).mix.passes = s.mix.passes ∧ (s.applyDrop x c b).mem = s.mem ∧
    (s.applyDrop x c b).link.requests = s.link.requests ∧ (s.applyDrop x c b).link.replies = s.link.replies ∧
    (s.applyDrop x c b).link.overrun = s.link.overrun ∧ (s.applyDrop x c b).link.held = s.link.held ∧
    (s.applyDrop x c b).link.addressAck = s.link.addressAck ∧ (s.applyDrop x c b).link.enable = s.link.enable ∧
    (s.applyDrop x c b).link.twoLine = s.link.twoLine ∧ (s.applyDrop x c b).faults = s.faults ∧ (s.applyDrop x c b).pins = s.pins ∧
    (s.applyDrop x c b).free = s.free := by
  unfold State.applyDrop; repeat' split
  all_goals simp

/-- What `State.applyRoute` leaves alone. -/
@[simp] theorem applyRoute_frame (x : CueContext) (c : Channel) (b : BusId) :
    (s.applyRoute x c b).pending = s.pending ∧ (s.applyRoute x c b).resetHeld = s.resetHeld ∧
    (s.applyRoute x c b).straps = s.straps ∧ (s.applyRoute x c b).lane = s.lane ∧ (s.applyRoute x c b).word = s.word ∧
    (s.applyRoute x c b).mix.xp = s.mix.xp ∧ (s.applyRoute x c b).mix.passes = s.mix.passes ∧ (s.applyRoute x c b).cues = s.cues ∧
    (s.applyRoute x c b).mem = s.mem ∧ (s.applyRoute x c b).link.requests = s.link.requests ∧
    (s.applyRoute x c b).link.replies = s.link.replies ∧ (s.applyRoute x c b).link.overrun = s.link.overrun ∧
    (s.applyRoute x c b).link.held = s.link.held ∧ (s.applyRoute x c b).link.addressAck = s.link.addressAck ∧
    (s.applyRoute x c b).link.enable = s.link.enable ∧ (s.applyRoute x c b).link.twoLine = s.link.twoLine ∧
    (s.applyRoute x c b).pins = s.pins ∧ (s.applyRoute x c b).free = s.free := by
  unfold State.applyRoute; repeat' split
  all_goals simp

/-- What `State.applyUnroute` leaves alone. -/
@[simp] theorem applyUnroute_frame (c : Channel) (b : BusId) :
    (s.applyUnroute c b).pending = s.pending ∧ (s.applyUnroute c b).resetHeld = s.resetHeld ∧
    (s.applyUnroute c b).straps = s.straps ∧ (s.applyUnroute c b).lane = s.lane ∧ (s.applyUnroute c b).word = s.word ∧
    (s.applyUnroute c b).mix.xp = s.mix.xp ∧ (s.applyUnroute c b).mix.passes = s.mix.passes ∧ (s.applyUnroute c b).cues = s.cues ∧
    (s.applyUnroute c b).mem = s.mem ∧ (s.applyUnroute c b).link = s.link ∧ (s.applyUnroute c b).faults = s.faults ∧
    (s.applyUnroute c b).pins = s.pins ∧ (s.applyUnroute c b).free = s.free := by
  unfold State.applyUnroute; repeat' split
  all_goals simp

/-- What `State.applyDelay` leaves alone. -/
@[simp] theorem applyDelay_frame (b : BusId) (d : Nat) :
    (s.applyDelay b d).pending = s.pending ∧ (s.applyDelay b d).resetHeld = s.resetHeld ∧ (s.applyDelay b d).straps = s.straps ∧
    (s.applyDelay b d).lane = s.lane ∧ (s.applyDelay b d).word = s.word ∧ (s.applyDelay b d).mix = s.mix ∧
    (s.applyDelay b d).cues = s.cues ∧ (s.applyDelay b d).mem.clearing = s.mem.clearing ∧
    (s.applyDelay b d).mem.readQ = s.mem.readQ ∧ (s.applyDelay b d).mem.writeQ = s.mem.writeQ ∧
    (s.applyDelay b d).mem.readWait = s.mem.readWait ∧ (s.applyDelay b d).mem.writeWait = s.mem.writeWait ∧
    (s.applyDelay b d).mem.openRow = s.mem.openRow ∧ (s.applyDelay b d).mem.access = s.mem.access ∧
    (s.applyDelay b d).mem.refreshDue = s.mem.refreshDue ∧ (s.applyDelay b d).mem.dram = s.mem.dram ∧
    (s.applyDelay b d).link = s.link ∧ (s.applyDelay b d).faults = s.faults ∧ (s.applyDelay b d).pins = s.pins ∧
    (s.applyDelay b d).free = s.free := by
  unfold State.applyDelay; repeat' split
  all_goals simp

/-- All that an edit can reach (R108 to R118). -/
@[simp] theorem applyEdit_frame (x : CueContext) (e : Edit) :
    (s.applyEdit x e).pending = s.pending ∧ (s.applyEdit x e).resetHeld = s.resetHeld ∧ (s.applyEdit x e).straps = s.straps ∧
    (s.applyEdit x e).lane = s.lane ∧ (s.applyEdit x e).word = s.word ∧ (s.applyEdit x e).mix.passes = s.mix.passes ∧
    (s.applyEdit x e).mem.clearing = s.mem.clearing ∧ (s.applyEdit x e).mem.readQ = s.mem.readQ ∧
    (s.applyEdit x e).mem.writeQ = s.mem.writeQ ∧ (s.applyEdit x e).mem.readWait = s.mem.readWait ∧
    (s.applyEdit x e).mem.writeWait = s.mem.writeWait ∧ (s.applyEdit x e).mem.openRow = s.mem.openRow ∧
    (s.applyEdit x e).mem.access = s.mem.access ∧ (s.applyEdit x e).mem.refreshDue = s.mem.refreshDue ∧
    (s.applyEdit x e).mem.dram = s.mem.dram ∧ (s.applyEdit x e).link.requests = s.link.requests ∧
    (s.applyEdit x e).link.replies = s.link.replies ∧ (s.applyEdit x e).link.overrun = s.link.overrun ∧
    (s.applyEdit x e).link.held = s.link.held ∧ (s.applyEdit x e).link.addressAck = s.link.addressAck ∧
    (s.applyEdit x e).link.enable = s.link.enable ∧ (s.applyEdit x e).link.twoLine = s.link.twoLine ∧
    (s.applyEdit x e).pins = s.pins ∧ (s.applyEdit x e).free = s.free := by
  unfold State.applyEdit; repeat' split
  all_goals simp

/-- What `State.markLeftLocked` leaves alone. -/
@[simp] theorem markLeftLocked_frame (g : GroupId) :
    (s.markLeftLocked g).pending = s.pending ∧ (s.markLeftLocked g).resetHeld = s.resetHeld ∧
    (s.markLeftLocked g).straps = s.straps ∧ (s.markLeftLocked g).lane = s.lane ∧ (s.markLeftLocked g).word = s.word ∧
    (s.markLeftLocked g).mix.buses = s.mix.buses ∧ (s.markLeftLocked g).mix.xp = s.mix.xp ∧
    (s.markLeftLocked g).mix.routes = s.mix.routes ∧ (s.markLeftLocked g).cues = s.cues ∧ (s.markLeftLocked g).mem = s.mem ∧
    (s.markLeftLocked g).link = s.link ∧ (s.markLeftLocked g).faults = s.faults ∧ (s.markLeftLocked g).pins = s.pins ∧
    (s.markLeftLocked g).free = s.free := by
  simp [State.markLeftLocked]

/-- What `State.driveJoined` leaves alone. -/
@[simp] theorem driveJoined_frame (g : GroupId) :
    (s.driveJoined g).pending = s.pending ∧ (s.driveJoined g).resetHeld = s.resetHeld ∧ (s.driveJoined g).straps = s.straps ∧
    (s.driveJoined g).lane.quads = s.lane.quads ∧ (s.driveJoined g).lane.groups = s.lane.groups ∧
    (s.driveJoined g).lane.joinedCapture = s.lane.joinedCapture ∧ (s.driveJoined g).word = s.word ∧ (s.driveJoined g).mix = s.mix ∧
    (s.driveJoined g).cues = s.cues ∧ (s.driveJoined g).mem = s.mem ∧ (s.driveJoined g).link = s.link ∧
    (s.driveJoined g).faults = s.faults ∧ (s.driveJoined g).pins = s.pins ∧ (s.driveJoined g).free = s.free := by
  simp [State.driveJoined]

/-- What `State.departLocked` leaves alone. -/
@[simp] theorem departLocked_frame (g : GroupId) :
    (s.departLocked g).pending = s.pending ∧ (s.departLocked g).resetHeld = s.resetHeld ∧ (s.departLocked g).straps = s.straps ∧
    (s.departLocked g).lane.quads = s.lane.quads ∧ (s.departLocked g).lane.joinedCapture = s.lane.joinedCapture ∧
    (s.departLocked g).word.capture = s.word.capture ∧ (s.departLocked g).word.inSlot = s.word.inSlot ∧
    (s.departLocked g).word.outSlot = s.word.outSlot ∧ (s.departLocked g).word.lastWord = s.word.lastWord ∧
    (s.departLocked g).word.firstFrame = s.word.firstFrame ∧ (s.departLocked g).mix.buses = s.mix.buses ∧
    (s.departLocked g).mix.xp = s.mix.xp ∧ (s.departLocked g).mix.routes = s.mix.routes ∧ (s.departLocked g).cues = s.cues ∧
    (s.departLocked g).mem = s.mem ∧ (s.departLocked g).link = s.link ∧ (s.departLocked g).faults = s.faults ∧
    (s.departLocked g).pins = s.pins ∧ (s.departLocked g).free = s.free := by
  simp [State.departLocked]

/-- All that a group's halt can reach (R14, R17 to R20, R25). -/
@[simp] theorem haltGroup_frame (g : GroupId) (st : GroupState) :
    (s.haltGroup g st).pending = s.pending ∧ (s.haltGroup g st).resetHeld = s.resetHeld ∧ (s.haltGroup g st).straps = s.straps ∧
    (s.haltGroup g st).lane.quads = s.lane.quads ∧ (s.haltGroup g st).lane.joinedCapture = s.lane.joinedCapture ∧
    (s.haltGroup g st).word.inSlot = s.word.inSlot ∧ (s.haltGroup g st).word.outSlot = s.word.outSlot ∧
    (s.haltGroup g st).word.lastWord = s.word.lastWord ∧ (s.haltGroup g st).word.firstFrame = s.word.firstFrame ∧
    (s.haltGroup g st).mix.buses = s.mix.buses ∧ (s.haltGroup g st).mix.xp = s.mix.xp ∧
    (s.haltGroup g st).mix.routes = s.mix.routes ∧ (s.haltGroup g st).cues = s.cues ∧ (s.haltGroup g st).mem = s.mem ∧
    (s.haltGroup g st).link.requests = s.link.requests ∧ (s.haltGroup g st).link.replies = s.link.replies ∧
    (s.haltGroup g st).link.overrun = s.link.overrun ∧ (s.haltGroup g st).link.held = s.link.held ∧
    (s.haltGroup g st).link.addressAck = s.link.addressAck ∧ (s.haltGroup g st).link.enable = s.link.enable ∧
    (s.haltGroup g st).link.twoLine = s.link.twoLine ∧ (s.haltGroup g st).faults = s.faults ∧ (s.haltGroup g st).pins = s.pins ∧
    (s.haltGroup g st).free = s.free := by
  unfold State.haltGroup; repeat' split
  all_goals simp

/-- What `State.acquire` leaves alone. -/
@[simp] theorem acquire_frame (g : GroupId) :
    (s.acquire g).pending = s.pending ∧ (s.acquire g).resetHeld = s.resetHeld ∧ (s.acquire g).straps = s.straps ∧
    (s.acquire g).lane.quads = s.lane.quads ∧ (s.acquire g).lane.joinedCapture = s.lane.joinedCapture ∧
    (s.acquire g).lane.joinedDriven = s.lane.joinedDriven ∧ (s.acquire g).word = s.word ∧ (s.acquire g).mix = s.mix ∧
    (s.acquire g).cues = s.cues ∧ (s.acquire g).mem = s.mem ∧ (s.acquire g).link.requests = s.link.requests ∧
    (s.acquire g).link.replies = s.link.replies ∧ (s.acquire g).link.overrun = s.link.overrun ∧
    (s.acquire g).link.held = s.link.held ∧ (s.acquire g).link.addressAck = s.link.addressAck ∧
    (s.acquire g).link.enable = s.link.enable ∧ (s.acquire g).link.twoLine = s.link.twoLine ∧ (s.acquire g).faults = s.faults ∧
    (s.acquire g).pins = s.pins ∧ (s.acquire g).free = s.free := by
  simp [State.acquire]

/-- What `State.enterLocked` leaves alone. -/
@[simp] theorem enterLocked_frame (g : GroupId) :
    (s.enterLocked g).pending = s.pending ∧ (s.enterLocked g).resetHeld = s.resetHeld ∧ (s.enterLocked g).straps = s.straps ∧
    (s.enterLocked g).lane.quads = s.lane.quads ∧ (s.enterLocked g).lane.joinedCapture = s.lane.joinedCapture ∧
    (s.enterLocked g).lane.joinedDriven = s.lane.joinedDriven ∧ (s.enterLocked g).word.capture = s.word.capture ∧
    (s.enterLocked g).word.inSlot = s.word.inSlot ∧ (s.enterLocked g).word.settled = s.word.settled ∧
    (s.enterLocked g).word.previous = s.word.previous ∧ (s.enterLocked g).mix = s.mix ∧ (s.enterLocked g).cues = s.cues ∧
    (s.enterLocked g).mem = s.mem ∧ (s.enterLocked g).link.requests = s.link.requests ∧
    (s.enterLocked g).link.replies = s.link.replies ∧ (s.enterLocked g).link.overrun = s.link.overrun ∧
    (s.enterLocked g).link.held = s.link.held ∧ (s.enterLocked g).link.addressAck = s.link.addressAck ∧
    (s.enterLocked g).link.enable = s.link.enable ∧ (s.enterLocked g).link.twoLine = s.link.twoLine ∧
    (s.enterLocked g).faults = s.faults ∧ (s.enterLocked g).pins = s.pins ∧ (s.enterLocked g).free = s.free := by
  simp [State.enterLocked]

/-- What `State.beginHalf` leaves alone. -/
@[simp] theorem beginHalf_frame (g : GroupId) (side : Side) :
    (s.beginHalf g side).pending = s.pending ∧ (s.beginHalf g side).resetHeld = s.resetHeld ∧
    (s.beginHalf g side).straps = s.straps ∧ (s.beginHalf g side).lane.quads = s.lane.quads ∧
    (s.beginHalf g side).lane.joinedDriven = s.lane.joinedDriven ∧ (s.beginHalf g side).word.inSlot = s.word.inSlot ∧
    (s.beginHalf g side).word.outSlot = s.word.outSlot ∧ (s.beginHalf g side).word.lastWord = s.word.lastWord ∧
    (s.beginHalf g side).word.settled = s.word.settled ∧ (s.beginHalf g side).word.previous = s.word.previous ∧
    (s.beginHalf g side).word.firstFrame = s.word.firstFrame ∧ (s.beginHalf g side).mix = s.mix ∧
    (s.beginHalf g side).cues = s.cues ∧ (s.beginHalf g side).mem = s.mem ∧ (s.beginHalf g side).link = s.link ∧
    (s.beginHalf g side).faults = s.faults ∧ (s.beginHalf g side).pins = s.pins ∧ (s.beginHalf g side).free = s.free := by
  simp [State.beginHalf]

/-- What `State.passArrival` leaves alone. -/
@[simp] theorem passArrival_frame (g : GroupId) (n : FrameNo) :
    (s.passArrival g n).pending = s.pending ∧ (s.passArrival g n).resetHeld = s.resetHeld ∧ (s.passArrival g n).straps = s.straps ∧
    (s.passArrival g n).lane = s.lane ∧ (s.passArrival g n).word = s.word ∧ (s.passArrival g n).mix.buses = s.mix.buses ∧
    (s.passArrival g n).mix.xp = s.mix.xp ∧ (s.passArrival g n).mix.routes = s.mix.routes ∧ (s.passArrival g n).cues = s.cues ∧
    (s.passArrival g n).mem = s.mem ∧ (s.passArrival g n).link.requests = s.link.requests ∧
    (s.passArrival g n).link.replies = s.link.replies ∧ (s.passArrival g n).link.overrun = s.link.overrun ∧
    (s.passArrival g n).link.held = s.link.held ∧ (s.passArrival g n).link.addressAck = s.link.addressAck ∧
    (s.passArrival g n).link.enable = s.link.enable ∧ (s.passArrival g n).link.twoLine = s.link.twoLine ∧
    (s.passArrival g n).pins = s.pins ∧ (s.passArrival g n).free = s.free := by
  unfold State.passArrival; repeat' split
  all_goals simp

/-- What `State.compareMark` leaves alone. -/
@[simp] theorem compareMark_frame (g : GroupId) :
    (s.compareMark g).pending = s.pending ∧ (s.compareMark g).resetHeld = s.resetHeld ∧ (s.compareMark g).straps = s.straps ∧
    (s.compareMark g).lane.quads = s.lane.quads ∧ (s.compareMark g).lane.joinedCapture = s.lane.joinedCapture ∧
    (s.compareMark g).lane.joinedDriven = s.lane.joinedDriven ∧ (s.compareMark g).word = s.word ∧ (s.compareMark g).mix = s.mix ∧
    (s.compareMark g).cues = s.cues ∧ (s.compareMark g).mem = s.mem ∧ (s.compareMark g).link.requests = s.link.requests ∧
    (s.compareMark g).link.replies = s.link.replies ∧ (s.compareMark g).link.overrun = s.link.overrun ∧
    (s.compareMark g).link.held = s.link.held ∧ (s.compareMark g).link.addressAck = s.link.addressAck ∧
    (s.compareMark g).link.enable = s.link.enable ∧ (s.compareMark g).link.twoLine = s.link.twoLine ∧
    (s.compareMark g).faults = s.faults ∧ (s.compareMark g).pins = s.pins ∧ (s.compareMark g).free = s.free := by
  unfold State.compareMark; dsimp only; split <;> simp

/-- What `State.judgeAcquiring` leaves alone. -/
@[simp] theorem judgeAcquiring_frame (g : GroupId) (side : Side) (good : Bool) :
    (s.judgeAcquiring g side good).pending = s.pending ∧ (s.judgeAcquiring g side good).resetHeld = s.resetHeld ∧
    (s.judgeAcquiring g side good).straps = s.straps ∧ (s.judgeAcquiring g side good).lane.quads = s.lane.quads ∧
    (s.judgeAcquiring g side good).lane.joinedCapture = s.lane.joinedCapture ∧
    (s.judgeAcquiring g side good).lane.joinedDriven = s.lane.joinedDriven ∧
    (s.judgeAcquiring g side good).word.capture = s.word.capture ∧ (s.judgeAcquiring g side good).word.inSlot = s.word.inSlot ∧
    (s.judgeAcquiring g side good).word.settled = s.word.settled ∧ (s.judgeAcquiring g side good).word.previous = s.word.previous ∧
    (s.judgeAcquiring g side good).mix = s.mix ∧ (s.judgeAcquiring g side good).cues = s.cues ∧
    (s.judgeAcquiring g side good).mem = s.mem ∧ (s.judgeAcquiring g side good).link.requests = s.link.requests ∧
    (s.judgeAcquiring g side good).link.replies = s.link.replies ∧ (s.judgeAcquiring g side good).link.overrun = s.link.overrun ∧
    (s.judgeAcquiring g side good).link.held = s.link.held ∧ (s.judgeAcquiring g side good).link.addressAck = s.link.addressAck ∧
    (s.judgeAcquiring g side good).link.enable = s.link.enable ∧ (s.judgeAcquiring g side good).link.twoLine = s.link.twoLine ∧
    (s.judgeAcquiring g side good).faults = s.faults ∧ (s.judgeAcquiring g side good).pins = s.pins ∧
    (s.judgeAcquiring g side good).free = s.free := by
  unfold State.judgeAcquiring; dsimp only
  split
  · simp
  · split
    · simp
    · split
      · simp
      · split <;> simp

/-- What `State.slip` leaves alone. -/
@[simp] theorem slip_frame (g : GroupId) :
    (s.slip g).pending = s.pending ∧ (s.slip g).resetHeld = s.resetHeld ∧ (s.slip g).straps = s.straps ∧
    (s.slip g).lane.quads = s.lane.quads ∧ (s.slip g).lane.joinedCapture = s.lane.joinedCapture ∧
    (s.slip g).word.inSlot = s.word.inSlot ∧ (s.slip g).word.outSlot = s.word.outSlot ∧
    (s.slip g).word.lastWord = s.word.lastWord ∧ (s.slip g).word.firstFrame = s.word.firstFrame ∧
    (s.slip g).mix.buses = s.mix.buses ∧ (s.slip g).mix.xp = s.mix.xp ∧ (s.slip g).mix.routes = s.mix.routes ∧
    (s.slip g).cues = s.cues ∧ (s.slip g).mem = s.mem ∧ (s.slip g).link.requests = s.link.requests ∧
    (s.slip g).link.replies = s.link.replies ∧ (s.slip g).link.overrun = s.link.overrun ∧ (s.slip g).link.held = s.link.held ∧
    (s.slip g).link.addressAck = s.link.addressAck ∧ (s.slip g).link.enable = s.link.enable ∧
    (s.slip g).link.twoLine = s.link.twoLine ∧ (s.slip g).pins = s.pins ∧ (s.slip g).free = s.free := by
  simp [State.slip]

/-- What `State.settle` leaves alone. -/
@[simp] theorem settle_frame (g : GroupId) :
    (s.settle g).pending = s.pending ∧ (s.settle g).resetHeld = s.resetHeld ∧ (s.settle g).straps = s.straps ∧
    (s.settle g).lane = s.lane ∧ (s.settle g).word.capture = s.word.capture ∧ (s.settle g).word.inSlot = s.word.inSlot ∧
    (s.settle g).word.firstFrame = s.word.firstFrame ∧ (s.settle g).mix = s.mix ∧ (s.settle g).cues = s.cues ∧
    (s.settle g).mem = s.mem ∧ (s.settle g).link = s.link ∧ (s.settle g).faults = s.faults ∧ (s.settle g).pins = s.pins ∧
    (s.settle g).free = s.free := by
  simp [State.settle]

/-- What `State.settleFirst` leaves alone. -/
@[simp] theorem settleFirst_frame (g : GroupId) :
    (s.settleFirst g).pending = s.pending ∧ (s.settleFirst g).resetHeld = s.resetHeld ∧ (s.settleFirst g).straps = s.straps ∧
    (s.settleFirst g).lane = s.lane ∧ (s.settleFirst g).word.capture = s.word.capture ∧
    (s.settleFirst g).word.inSlot = s.word.inSlot ∧ (s.settleFirst g).mix = s.mix ∧ (s.settleFirst g).cues = s.cues ∧
    (s.settleFirst g).mem = s.mem ∧ (s.settleFirst g).link = s.link ∧ (s.settleFirst g).faults = s.faults ∧
    (s.settleFirst g).pins = s.pins ∧ (s.settleFirst g).free = s.free := by
  simp [State.settleFirst]

/-- What `State.frameStartLocked` leaves alone. -/
@[simp] theorem frameStartLocked_frame (g : GroupId) (n : FrameNo) :
    (s.frameStartLocked g n).pending = s.pending ∧ (s.frameStartLocked g n).resetHeld = s.resetHeld ∧
    (s.frameStartLocked g n).straps = s.straps ∧ (s.frameStartLocked g n).lane.quads = s.lane.quads ∧
    (s.frameStartLocked g n).lane.groups = s.lane.groups ∧ (s.frameStartLocked g n).lane.joinedCapture = s.lane.joinedCapture ∧
    (s.frameStartLocked g n).word.capture = s.word.capture ∧ (s.frameStartLocked g n).word.inSlot = s.word.inSlot ∧
    (s.frameStartLocked g n).mix = s.mix ∧ (s.frameStartLocked g n).cues = s.cues ∧ (s.frameStartLocked g n).mem = s.mem ∧
    (s.frameStartLocked g n).link.requests = s.link.requests ∧ (s.frameStartLocked g n).link.replies = s.link.replies ∧
    (s.frameStartLocked g n).link.overrun = s.link.overrun ∧ (s.frameStartLocked g n).link.held = s.link.held ∧
    (s.frameStartLocked g n).link.addressAck = s.link.addressAck ∧ (s.frameStartLocked g n).link.enable = s.link.enable ∧
    (s.frameStartLocked g n).link.twoLine = s.link.twoLine ∧ (s.frameStartLocked g n).pins = s.pins ∧
    (s.frameStartLocked g n).free = s.free := by
  unfold State.frameStartLocked; repeat' split
  all_goals simp

/-- What `State.startAtEdge` leaves alone. -/
@[simp] theorem startAtEdge_frame (g : GroupId) (d : Bool) :
    (s.startAtEdge g d).pending = s.pending ∧ (s.startAtEdge g d).resetHeld = s.resetHeld ∧ (s.startAtEdge g d).straps = s.straps ∧
    (s.startAtEdge g d).lane.quads = s.lane.quads ∧ (s.startAtEdge g d).lane.groups = s.lane.groups ∧
    (s.startAtEdge g d).lane.joinedCapture = s.lane.joinedCapture ∧ (s.startAtEdge g d).word.capture = s.word.capture ∧
    (s.startAtEdge g d).word.inSlot = s.word.inSlot ∧ (s.startAtEdge g d).mix = s.mix ∧ (s.startAtEdge g d).cues = s.cues ∧
    (s.startAtEdge g d).mem = s.mem ∧ (s.startAtEdge g d).link.requests = s.link.requests ∧
    (s.startAtEdge g d).link.replies = s.link.replies ∧ (s.startAtEdge g d).link.overrun = s.link.overrun ∧
    (s.startAtEdge g d).link.held = s.link.held ∧ (s.startAtEdge g d).link.addressAck = s.link.addressAck ∧
    (s.startAtEdge g d).link.enable = s.link.enable ∧ (s.startAtEdge g d).link.twoLine = s.link.twoLine ∧
    (s.startAtEdge g d).pins = s.pins ∧ (s.startAtEdge g d).free = s.free := by
  unfold State.startAtEdge; repeat' split
  all_goals simp

/-- What `State.frameArrival` leaves alone. -/
@[simp] theorem frameArrival_frame (g : GroupId) (d : Bool) :
    (s.frameArrival g d).pending = s.pending ∧ (s.frameArrival g d).resetHeld = s.resetHeld ∧
    (s.frameArrival g d).straps = s.straps ∧ (s.frameArrival g d).lane.quads = s.lane.quads ∧
    (s.frameArrival g d).lane.joinedCapture = s.lane.joinedCapture ∧ (s.frameArrival g d).word.capture = s.word.capture ∧
    (s.frameArrival g d).word.inSlot = s.word.inSlot ∧ (s.frameArrival g d).mix.buses = s.mix.buses ∧
    (s.frameArrival g d).mix.xp = s.mix.xp ∧ (s.frameArrival g d).mix.routes = s.mix.routes ∧ (s.frameArrival g d).cues = s.cues ∧
    (s.frameArrival g d).mem = s.mem ∧ (s.frameArrival g d).link.requests = s.link.requests ∧
    (s.frameArrival g d).link.replies = s.link.replies ∧ (s.frameArrival g d).link.overrun = s.link.overrun ∧
    (s.frameArrival g d).link.held = s.link.held ∧ (s.frameArrival g d).link.addressAck = s.link.addressAck ∧
    (s.frameArrival g d).link.enable = s.link.enable ∧ (s.frameArrival g d).link.twoLine = s.link.twoLine ∧
    (s.frameArrival g d).pins = s.pins ∧ (s.frameArrival g d).free = s.free := by
  simp [State.frameArrival]

/-- What `State.judgeLocked` leaves alone. -/
@[simp] theorem judgeLocked_frame (g : GroupId) (side : Side) (d : Bool) :
    (s.judgeLocked g side d).pending = s.pending ∧ (s.judgeLocked g side d).resetHeld = s.resetHeld ∧
    (s.judgeLocked g side d).straps = s.straps ∧ (s.judgeLocked g side d).lane.quads = s.lane.quads ∧
    (s.judgeLocked g side d).lane.joinedCapture = s.lane.joinedCapture ∧ (s.judgeLocked g side d).word.capture = s.word.capture ∧
    (s.judgeLocked g side d).word.inSlot = s.word.inSlot ∧ (s.judgeLocked g side d).mix.buses = s.mix.buses ∧
    (s.judgeLocked g side d).mix.xp = s.mix.xp ∧ (s.judgeLocked g side d).mix.routes = s.mix.routes ∧
    (s.judgeLocked g side d).cues = s.cues ∧ (s.judgeLocked g side d).mem = s.mem ∧
    (s.judgeLocked g side d).link.requests = s.link.requests ∧ (s.judgeLocked g side d).link.replies = s.link.replies ∧
    (s.judgeLocked g side d).link.overrun = s.link.overrun ∧ (s.judgeLocked g side d).link.held = s.link.held ∧
    (s.judgeLocked g side d).link.addressAck = s.link.addressAck ∧ (s.judgeLocked g side d).link.enable = s.link.enable ∧
    (s.judgeLocked g side d).link.twoLine = s.link.twoLine ∧ (s.judgeLocked g side d).pins = s.pins ∧
    (s.judgeLocked g side d).free = s.free := by
  unfold State.judgeLocked; repeat' split
  all_goals simp

/-- What `State.freeOutputs` leaves alone. -/
@[simp] theorem freeOutputs_frame (q : QuadId) :
    (s.freeOutputs q).pending = s.pending ∧ (s.freeOutputs q).resetHeld = s.resetHeld ∧ (s.freeOutputs q).straps = s.straps ∧
    (s.freeOutputs q).lane = s.lane ∧ (s.freeOutputs q).word = s.word ∧ (s.freeOutputs q).mix.buses = s.mix.buses ∧
    (s.freeOutputs q).mix.xp = s.mix.xp ∧ (s.freeOutputs q).mix.passes = s.mix.passes ∧ (s.freeOutputs q).cues = s.cues ∧
    (s.freeOutputs q).mem = s.mem ∧ (s.freeOutputs q).link = s.link ∧ (s.freeOutputs q).faults = s.faults ∧
    (s.freeOutputs q).pins = s.pins ∧ (s.freeOutputs q).free = s.free := by
  simp [State.freeOutputs]

/-- What `State.startQuad` leaves alone. -/
@[simp] theorem startQuad_frame (q : QuadId) (plan : Plan) :
    (s.startQuad q plan).pending = s.pending ∧ (s.startQuad q plan).resetHeld = s.resetHeld ∧
    (s.startQuad q plan).straps = s.straps ∧ (s.startQuad q plan).lane.groups = s.lane.groups ∧
    (s.startQuad q plan).lane.joinedCapture = s.lane.joinedCapture ∧ (s.startQuad q plan).lane.joinedDriven = s.lane.joinedDriven ∧
    (s.startQuad q plan).word = s.word ∧ (s.startQuad q plan).mix.buses = s.mix.buses ∧ (s.startQuad q plan).mix.xp = s.mix.xp ∧
    (s.startQuad q plan).mix.passes = s.mix.passes ∧ (s.startQuad q plan).cues = s.cues ∧ (s.startQuad q plan).mem = s.mem ∧
    (s.startQuad q plan).link = s.link ∧ (s.startQuad q plan).faults = s.faults ∧ (s.startQuad q plan).pins = s.pins ∧
    (s.startQuad q plan).free = s.free := by
  simp [State.startQuad]

/-- What `State.startGroup` leaves alone. -/
@[simp] theorem startGroup_frame (g : GroupId) :
    (s.startGroup g).pending = s.pending ∧ (s.startGroup g).resetHeld = s.resetHeld ∧ (s.startGroup g).straps = s.straps ∧
    (s.startGroup g).lane.quads = s.lane.quads ∧ (s.startGroup g).lane.joinedCapture = s.lane.joinedCapture ∧
    (s.startGroup g).lane.joinedDriven = s.lane.joinedDriven ∧ (s.startGroup g).word = s.word ∧ (s.startGroup g).mix = s.mix ∧
    (s.startGroup g).cues = s.cues ∧ (s.startGroup g).mem = s.mem ∧ (s.startGroup g).link.requests = s.link.requests ∧
    (s.startGroup g).link.replies = s.link.replies ∧ (s.startGroup g).link.overrun = s.link.overrun ∧
    (s.startGroup g).link.held = s.link.held ∧ (s.startGroup g).link.addressAck = s.link.addressAck ∧
    (s.startGroup g).link.enable = s.link.enable ∧ (s.startGroup g).link.twoLine = s.link.twoLine ∧
    (s.startGroup g).faults = s.faults ∧ (s.startGroup g).pins = s.pins ∧ (s.startGroup g).free = s.free := by
  simp [State.startGroup]

/-- What `State.startJoined` leaves alone. -/
@[simp] theorem startJoined_frame :
    (s.startJoined).pending = s.pending ∧ (s.startJoined).resetHeld = s.resetHeld ∧ (s.startJoined).straps = s.straps ∧
    (s.startJoined).lane.quads = s.lane.quads ∧ (s.startJoined).lane.groups = s.lane.groups ∧ (s.startJoined).word = s.word ∧
    (s.startJoined).mix = s.mix ∧ (s.startJoined).cues = s.cues ∧ (s.startJoined).mem = s.mem ∧ (s.startJoined).link = s.link ∧
    (s.startJoined).faults = s.faults ∧ (s.startJoined).pins = s.pins ∧ (s.startJoined).free = s.free := by
  simp [State.startJoined]

/-- What `State.retireInputs` leaves alone. -/
@[simp] theorem retireInputs_frame (ch : Channel → Bool) :
    (s.retireInputs ch).pending = s.pending ∧ (s.retireInputs ch).resetHeld = s.resetHeld ∧ (s.retireInputs ch).straps = s.straps ∧
    (s.retireInputs ch).lane = s.lane ∧ (s.retireInputs ch).word.outSlot = s.word.outSlot ∧
    (s.retireInputs ch).word.lastWord = s.word.lastWord ∧ (s.retireInputs ch).word.settled = s.word.settled ∧
    (s.retireInputs ch).word.previous = s.word.previous ∧ (s.retireInputs ch).word.firstFrame = s.word.firstFrame ∧
    (s.retireInputs ch).mix.routes = s.mix.routes ∧ (s.retireInputs ch).mix.passes = s.mix.passes ∧
    (s.retireInputs ch).mem = s.mem ∧ (s.retireInputs ch).link.requests = s.link.requests ∧
    (s.retireInputs ch).link.replies = s.link.replies ∧ (s.retireInputs ch).link.overrun = s.link.overrun ∧
    (s.retireInputs ch).link.held = s.link.held ∧ (s.retireInputs ch).link.addressAck = s.link.addressAck ∧
    (s.retireInputs ch).link.enable = s.link.enable ∧ (s.retireInputs ch).link.twoLine = s.link.twoLine ∧
    (s.retireInputs ch).faults = s.faults ∧ (s.retireInputs ch).pins = s.pins ∧ (s.retireInputs ch).free = s.free := by
  unfold State.retireInputs; dsimp only
  exact ⟨(foldl_proj _ (fun t : State => t.pending) (fun t e => by simp) _ _).trans (by simp),
    (foldl_proj _ (fun t : State => t.resetHeld) (fun t e => by simp) _ _).trans (by simp),
    (foldl_proj _ (fun t : State => t.straps) (fun t e => by simp) _ _).trans (by simp),
    (foldl_proj _ (fun t : State => t.lane) (fun t e => by simp) _ _).trans (by simp),
    (foldl_proj _ (fun t : State => t.word.outSlot) (fun t e => by simp) _ _).trans (by simp),
    (foldl_proj _ (fun t : State => t.word.lastWord) (fun t e => by simp) _ _).trans (by simp),
    (foldl_proj _ (fun t : State => t.word.settled) (fun t e => by simp) _ _).trans (by simp),
    (foldl_proj _ (fun t : State => t.word.previous) (fun t e => by simp) _ _).trans (by simp),
    (foldl_proj _ (fun t : State => t.word.firstFrame) (fun t e => by simp) _ _).trans (by simp),
    (foldl_proj _ (fun t : State => t.mix.routes) (fun t e => by simp) _ _).trans (by simp),
    (foldl_proj _ (fun t : State => t.mix.passes) (fun t e => by simp) _ _).trans (by simp),
    (foldl_proj _ (fun t : State => t.mem) (fun t e => by simp) _ _).trans (by simp),
    (foldl_proj _ (fun t : State => t.link.requests) (fun t e => by simp) _ _).trans (by simp),
    (foldl_proj _ (fun t : State => t.link.replies) (fun t e => by simp) _ _).trans (by simp),
    (foldl_proj _ (fun t : State => t.link.overrun) (fun t e => by simp) _ _).trans (by simp),
    (foldl_proj _ (fun t : State => t.link.held) (fun t e => by simp) _ _).trans (by simp),
    (foldl_proj _ (fun t : State => t.link.addressAck) (fun t e => by simp) _ _).trans (by simp),
    (foldl_proj _ (fun t : State => t.link.enable) (fun t e => by simp) _ _).trans (by simp),
    (foldl_proj _ (fun t : State => t.link.twoLine) (fun t e => by simp) _ _).trans (by simp),
    (foldl_proj _ (fun t : State => t.faults) (fun t e => by simp) _ _).trans (by simp),
    (foldl_proj _ (fun t : State => t.pins) (fun t e => by simp) _ _).trans (by simp),
    (foldl_proj _ (fun t : State => t.free) (fun t e => by simp) _ _).trans (by simp)⟩

/-- What `State.retireOutputs` leaves alone. -/
@[simp] theorem retireOutputs_frame (ch : Channel → Bool) :
    (s.retireOutputs ch).pending = s.pending ∧ (s.retireOutputs ch).resetHeld = s.resetHeld ∧
    (s.retireOutputs ch).straps = s.straps ∧ (s.retireOutputs ch).lane = s.lane ∧
    (s.retireOutputs ch).word.capture = s.word.capture ∧ (s.retireOutputs ch).word.inSlot = s.word.inSlot ∧
    (s.retireOutputs ch).word.firstFrame = s.word.firstFrame ∧ (s.retireOutputs ch).mix.xp = s.mix.xp ∧
    (s.retireOutputs ch).mix.passes = s.mix.passes ∧ (s.retireOutputs ch).cues = s.cues ∧ (s.retireOutputs ch).mem = s.mem ∧
    (s.retireOutputs ch).link = s.link ∧ (s.retireOutputs ch).faults = s.faults ∧ (s.retireOutputs ch).pins = s.pins ∧
    (s.retireOutputs ch).free = s.free := by
  unfold State.retireOutputs; dsimp only
  exact ⟨(foldl_proj _ (fun t : State => t.pending) (fun t e => by simp) _ _).trans (by simp),
    (foldl_proj _ (fun t : State => t.resetHeld) (fun t e => by simp) _ _).trans (by simp),
    (foldl_proj _ (fun t : State => t.straps) (fun t e => by simp) _ _).trans (by simp),
    (foldl_proj _ (fun t : State => t.lane) (fun t e => by simp) _ _).trans (by simp),
    (foldl_proj _ (fun t : State => t.word.capture) (fun t e => by simp) _ _).trans (by simp),
    (foldl_proj _ (fun t : State => t.word.inSlot) (fun t e => by simp) _ _).trans (by simp),
    (foldl_proj _ (fun t : State => t.word.firstFrame) (fun t e => by simp) _ _).trans (by simp),
    (foldl_proj _ (fun t : State => t.mix.xp) (fun t e => by simp) _ _).trans (by simp),
    (foldl_proj _ (fun t : State => t.mix.passes) (fun t e => by simp) _ _).trans (by simp),
    (foldl_proj _ (fun t : State => t.cues) (fun t e => by simp) _ _).trans (by simp),
    (foldl_proj _ (fun t : State => t.mem) (fun t e => by simp) _ _).trans (by simp),
    (foldl_proj _ (fun t : State => t.link) (fun t e => by simp) _ _).trans (by simp),
    (foldl_proj _ (fun t : State => t.faults) (fun t e => by simp) _ _).trans (by simp),
    (foldl_proj _ (fun t : State => t.pins) (fun t e => by simp) _ _).trans (by simp),
    (foldl_proj _ (fun t : State => t.free) (fun t e => by simp) _ _).trans (by simp)⟩

/-- What `State.arbitrateMem` leaves alone. -/
@[simp] theorem arbitrateMem_frame :
    (s.arbitrateMem).pending = s.pending ∧ (s.arbitrateMem).resetHeld = s.resetHeld ∧ (s.arbitrateMem).straps = s.straps ∧
    (s.arbitrateMem).lane = s.lane ∧ (s.arbitrateMem).word = s.word ∧ (s.arbitrateMem).mix = s.mix ∧
    (s.arbitrateMem).cues = s.cues ∧ (s.arbitrateMem).mem.lines = s.mem.lines ∧ (s.arbitrateMem).mem.clearing = s.mem.clearing ∧
    (s.arbitrateMem).mem.readWait = s.mem.readWait ∧ (s.arbitrateMem).mem.writeWait = s.mem.writeWait ∧
    (s.arbitrateMem).mem.dram = s.mem.dram ∧ (s.arbitrateMem).link = s.link ∧ (s.arbitrateMem).faults = s.faults ∧
    (s.arbitrateMem).pins = s.pins ∧ (s.arbitrateMem).free = s.free := by
  simp [State.arbitrateMem]

/-- What `State.modifyPass` leaves alone. -/
@[simp] theorem modifyPass_frame (g : GroupId) (f : Pass → Pass) :
    (s.modifyPass g f).pending = s.pending ∧ (s.modifyPass g f).resetHeld = s.resetHeld ∧ (s.modifyPass g f).straps = s.straps ∧
    (s.modifyPass g f).lane = s.lane ∧ (s.modifyPass g f).word = s.word ∧ (s.modifyPass g f).mix.buses = s.mix.buses ∧
    (s.modifyPass g f).mix.xp = s.mix.xp ∧ (s.modifyPass g f).mix.routes = s.mix.routes ∧ (s.modifyPass g f).cues = s.cues ∧
    (s.modifyPass g f).mem = s.mem ∧ (s.modifyPass g f).link = s.link ∧ (s.modifyPass g f).faults = s.faults ∧
    (s.modifyPass g f).pins = s.pins ∧ (s.modifyPass g f).free = s.free := by
  simp [State.modifyPass]

/-- What `State.place` leaves alone. -/
@[simp] theorem place_frame (g : GroupId) (b : BusId) (v : Sample) :
    (s.place g b v).pending = s.pending ∧ (s.place g b v).resetHeld = s.resetHeld ∧ (s.place g b v).straps = s.straps ∧
    (s.place g b v).lane = s.lane ∧ (s.place g b v).word.capture = s.word.capture ∧ (s.place g b v).word.inSlot = s.word.inSlot ∧
    (s.place g b v).word.lastWord = s.word.lastWord ∧ (s.place g b v).word.settled = s.word.settled ∧
    (s.place g b v).word.previous = s.word.previous ∧ (s.place g b v).word.firstFrame = s.word.firstFrame ∧
    (s.place g b v).mix = s.mix ∧ (s.place g b v).cues = s.cues ∧ (s.place g b v).mem = s.mem ∧ (s.place g b v).link = s.link ∧
    (s.place g b v).faults = s.faults ∧ (s.place g b v).pins = s.pins ∧ (s.place g b v).free = s.free := by
  unfold State.place; dsimp only
  cases s.pass g <;> (simp only []; split <;> simp)

/-- What `State.valueKnown` leaves alone. -/
@[simp] theorem valueKnown_frame (g : GroupId) (b : BusId) (v : Sample) :
    (s.valueKnown g b v).pending = s.pending ∧ (s.valueKnown g b v).resetHeld = s.resetHeld ∧
    (s.valueKnown g b v).straps = s.straps ∧ (s.valueKnown g b v).lane = s.lane ∧
    (s.valueKnown g b v).word.capture = s.word.capture ∧ (s.valueKnown g b v).word.inSlot = s.word.inSlot ∧
    (s.valueKnown g b v).word.lastWord = s.word.lastWord ∧ (s.valueKnown g b v).word.settled = s.word.settled ∧
    (s.valueKnown g b v).word.previous = s.word.previous ∧ (s.valueKnown g b v).word.firstFrame = s.word.firstFrame ∧
    (s.valueKnown g b v).mix.buses = s.mix.buses ∧ (s.valueKnown g b v).mix.xp = s.mix.xp ∧
    (s.valueKnown g b v).mix.routes = s.mix.routes ∧ (s.valueKnown g b v).cues = s.cues ∧ (s.valueKnown g b v).mem = s.mem ∧
    (s.valueKnown g b v).link = s.link ∧ (s.valueKnown g b v).faults = s.faults ∧ (s.valueKnown g b v).pins = s.pins ∧
    (s.valueKnown g b v).free = s.free := by
  simp [State.valueKnown]

/-- What `State.endPass` leaves alone. -/
@[simp] theorem endPass_frame (g : GroupId) :
    (s.endPass g).pending = s.pending ∧ (s.endPass g).resetHeld = s.resetHeld ∧ (s.endPass g).straps = s.straps ∧
    (s.endPass g).lane = s.lane ∧ (s.endPass g).word = s.word ∧ (s.endPass g).mix.buses = s.mix.buses ∧
    (s.endPass g).mix.xp = s.mix.xp ∧ (s.endPass g).mix.routes = s.mix.routes ∧ (s.endPass g).mem = s.mem ∧
    (s.endPass g).link = s.link ∧ (s.endPass g).faults = s.faults ∧ (s.endPass g).pins = s.pins ∧ (s.endPass g).free = s.free := by
  simp [State.endPass]

/-- What `State.finishPass` leaves alone. -/
@[simp] theorem finishPass_frame (g : GroupId) :
    (s.finishPass g).pending = s.pending ∧ (s.finishPass g).resetHeld = s.resetHeld ∧ (s.finishPass g).straps = s.straps ∧
    (s.finishPass g).lane = s.lane ∧ (s.finishPass g).word = s.word ∧ (s.finishPass g).mix.buses = s.mix.buses ∧
    (s.finishPass g).mix.xp = s.mix.xp ∧ (s.finishPass g).mix.routes = s.mix.routes ∧ (s.finishPass g).mem = s.mem ∧
    (s.finishPass g).link = s.link ∧ (s.finishPass g).faults = s.faults ∧ (s.finishPass g).pins = s.pins ∧
    (s.finishPass g).free = s.free := by
  unfold State.finishPass; repeat' split
  all_goals simp

/-- What `State.admitWrite` leaves alone. -/
@[simp] theorem admitWrite_frame (w : WriteRequest) :
    (s.admitWrite w).pending = s.pending ∧ (s.admitWrite w).resetHeld = s.resetHeld ∧ (s.admitWrite w).straps = s.straps ∧
    (s.admitWrite w).lane = s.lane ∧ (s.admitWrite w).word = s.word ∧ (s.admitWrite w).mix = s.mix ∧
    (s.admitWrite w).cues = s.cues ∧ (s.admitWrite w).mem.lines = s.mem.lines ∧ (s.admitWrite w).mem.clearing = s.mem.clearing ∧
    (s.admitWrite w).mem.readWait = s.mem.readWait ∧ (s.admitWrite w).mem.writeWait = s.mem.writeWait ∧
    (s.admitWrite w).mem.dram = s.mem.dram ∧ (s.admitWrite w).link = s.link ∧ (s.admitWrite w).faults = s.faults ∧
    (s.admitWrite w).pins = s.pins ∧ (s.admitWrite w).free = s.free := by
  simp [State.admitWrite]

/-- What `State.admitRead` leaves alone. -/
@[simp] theorem admitRead_frame (r : ReadRequest) :
    (s.admitRead r).pending = s.pending ∧ (s.admitRead r).resetHeld = s.resetHeld ∧ (s.admitRead r).straps = s.straps ∧
    (s.admitRead r).lane = s.lane ∧ (s.admitRead r).word = s.word ∧ (s.admitRead r).mix = s.mix ∧ (s.admitRead r).cues = s.cues ∧
    (s.admitRead r).mem.lines = s.mem.lines ∧ (s.admitRead r).mem.clearing = s.mem.clearing ∧
    (s.admitRead r).mem.readWait = s.mem.readWait ∧ (s.admitRead r).mem.writeWait = s.mem.writeWait ∧
    (s.admitRead r).mem.dram = s.mem.dram ∧ (s.admitRead r).link = s.link ∧ (s.admitRead r).faults = s.faults ∧
    (s.admitRead r).pins = s.pins ∧ (s.admitRead r).free = s.free := by
  simp [State.admitRead]

/-- What `State.advanceIndex` leaves alone. -/
@[simp] theorem advanceIndex_frame (b : BusId) :
    (s.advanceIndex b).pending = s.pending ∧ (s.advanceIndex b).resetHeld = s.resetHeld ∧ (s.advanceIndex b).straps = s.straps ∧
    (s.advanceIndex b).lane = s.lane ∧ (s.advanceIndex b).word = s.word ∧ (s.advanceIndex b).mix = s.mix ∧
    (s.advanceIndex b).cues = s.cues ∧ (s.advanceIndex b).mem.clearing = s.mem.clearing ∧
    (s.advanceIndex b).mem.readQ = s.mem.readQ ∧ (s.advanceIndex b).mem.writeQ = s.mem.writeQ ∧
    (s.advanceIndex b).mem.readWait = s.mem.readWait ∧ (s.advanceIndex b).mem.writeWait = s.mem.writeWait ∧
    (s.advanceIndex b).mem.openRow = s.mem.openRow ∧ (s.advanceIndex b).mem.access = s.mem.access ∧
    (s.advanceIndex b).mem.refreshDue = s.mem.refreshDue ∧ (s.advanceIndex b).mem.dram = s.mem.dram ∧
    (s.advanceIndex b).link = s.link ∧ (s.advanceIndex b).faults = s.faults ∧ (s.advanceIndex b).pins = s.pins ∧
    (s.advanceIndex b).free = s.free := by
  unfold State.advanceIndex; repeat' split
  all_goals simp

/-- All that an offered write can reach (R73, R75, R135). -/
@[simp] theorem offerWrite_frame (g : GroupId) :
    (s.offerWrite g).pending = s.pending ∧ (s.offerWrite g).resetHeld = s.resetHeld ∧ (s.offerWrite g).straps = s.straps ∧
    (s.offerWrite g).lane = s.lane ∧ (s.offerWrite g).word = s.word ∧ (s.offerWrite g).mix.buses = s.mix.buses ∧
    (s.offerWrite g).mix.xp = s.mix.xp ∧ (s.offerWrite g).mix.routes = s.mix.routes ∧ (s.offerWrite g).cues = s.cues ∧
    (s.offerWrite g).mem.clearing = s.mem.clearing ∧ (s.offerWrite g).mem.readWait = s.mem.readWait ∧
    (s.offerWrite g).mem.dram = s.mem.dram ∧ (s.offerWrite g).link = s.link ∧ (s.offerWrite g).faults = s.faults ∧
    (s.offerWrite g).pins = s.pins ∧ (s.offerWrite g).free = s.free := by
  unfold State.offerWrite; repeat' split
  all_goals simp

/-- What `State.readAccepted` leaves alone. -/
@[simp] theorem readAccepted_frame (g : GroupId) :
    (s.readAccepted g).pending = s.pending ∧ (s.readAccepted g).resetHeld = s.resetHeld ∧ (s.readAccepted g).straps = s.straps ∧
    (s.readAccepted g).lane = s.lane ∧ (s.readAccepted g).word = s.word ∧ (s.readAccepted g).mix.buses = s.mix.buses ∧
    (s.readAccepted g).mix.xp = s.mix.xp ∧ (s.readAccepted g).mix.routes = s.mix.routes ∧ (s.readAccepted g).cues = s.cues ∧
    (s.readAccepted g).mem.lines = s.mem.lines ∧ (s.readAccepted g).mem.clearing = s.mem.clearing ∧
    (s.readAccepted g).mem.readQ = s.mem.readQ ∧ (s.readAccepted g).mem.writeQ = s.mem.writeQ ∧
    (s.readAccepted g).mem.writeWait = s.mem.writeWait ∧ (s.readAccepted g).mem.openRow = s.mem.openRow ∧
    (s.readAccepted g).mem.access = s.mem.access ∧ (s.readAccepted g).mem.refreshDue = s.mem.refreshDue ∧
    (s.readAccepted g).mem.dram = s.mem.dram ∧ (s.readAccepted g).link = s.link ∧ (s.readAccepted g).faults = s.faults ∧
    (s.readAccepted g).pins = s.pins ∧ (s.readAccepted g).free = s.free := by
  simp [State.readAccepted]

/-- All that an offered read can reach (R75, R135). -/
@[simp] theorem offerRead_frame (g : GroupId) :
    (s.offerRead g).pending = s.pending ∧ (s.offerRead g).resetHeld = s.resetHeld ∧ (s.offerRead g).straps = s.straps ∧
    (s.offerRead g).lane = s.lane ∧ (s.offerRead g).word.capture = s.word.capture ∧ (s.offerRead g).word.inSlot = s.word.inSlot ∧
    (s.offerRead g).word.lastWord = s.word.lastWord ∧ (s.offerRead g).word.settled = s.word.settled ∧
    (s.offerRead g).word.previous = s.word.previous ∧ (s.offerRead g).word.firstFrame = s.word.firstFrame ∧
    (s.offerRead g).mix.buses = s.mix.buses ∧ (s.offerRead g).mix.xp = s.mix.xp ∧ (s.offerRead g).mix.routes = s.mix.routes ∧
    (s.offerRead g).cues = s.cues ∧ (s.offerRead g).mem.clearing = s.mem.clearing ∧ (s.offerRead g).mem.dram = s.mem.dram ∧
    (s.offerRead g).link = s.link ∧ (s.offerRead g).faults = s.faults ∧ (s.offerRead g).pins = s.pins ∧
    (s.offerRead g).free = s.free := by
  unfold State.offerRead; repeat' split
  all_goals simp

/-- What `State.exchangeLine` leaves alone. -/
@[simp] theorem exchangeLine_frame (g : GroupId) (i : PassBus) (l : Line) :
    (s.exchangeLine g i l).pending = s.pending ∧ (s.exchangeLine g i l).resetHeld = s.resetHeld ∧
    (s.exchangeLine g i l).straps = s.straps ∧ (s.exchangeLine g i l).lane = s.lane ∧
    (s.exchangeLine g i l).word.capture = s.word.capture ∧ (s.exchangeLine g i l).word.inSlot = s.word.inSlot ∧
    (s.exchangeLine g i l).word.lastWord = s.word.lastWord ∧ (s.exchangeLine g i l).word.settled = s.word.settled ∧
    (s.exchangeLine g i l).word.previous = s.word.previous ∧ (s.exchangeLine g i l).word.firstFrame = s.word.firstFrame ∧
    (s.exchangeLine g i l).mix.buses = s.mix.buses ∧ (s.exchangeLine g i l).mix.xp = s.mix.xp ∧
    (s.exchangeLine g i l).mix.routes = s.mix.routes ∧ (s.exchangeLine g i l).cues = s.cues ∧
    (s.exchangeLine g i l).mem.clearing = s.mem.clearing ∧ (s.exchangeLine g i l).mem.dram = s.mem.dram ∧
    (s.exchangeLine g i l).link = s.link ∧ (s.exchangeLine g i l).faults = s.faults ∧ (s.exchangeLine g i l).pins = s.pins ∧
    (s.exchangeLine g i l).free = s.free := by
  simp [State.exchangeLine]

/-- What `State.visit` leaves alone. -/
@[simp] theorem visit_frame (g : GroupId) (i : PassBus) :
    (s.visit g i).pending = s.pending ∧ (s.visit g i).resetHeld = s.resetHeld ∧ (s.visit g i).straps = s.straps ∧
    (s.visit g i).lane = s.lane ∧ (s.visit g i).word.capture = s.word.capture ∧ (s.visit g i).word.inSlot = s.word.inSlot ∧
    (s.visit g i).word.lastWord = s.word.lastWord ∧ (s.visit g i).word.settled = s.word.settled ∧
    (s.visit g i).word.previous = s.word.previous ∧ (s.visit g i).word.firstFrame = s.word.firstFrame ∧
    (s.visit g i).mix.buses = s.mix.buses ∧ (s.visit g i).mix.xp = s.mix.xp ∧ (s.visit g i).mix.routes = s.mix.routes ∧
    (s.visit g i).cues = s.cues ∧ (s.visit g i).mem.clearing = s.mem.clearing ∧ (s.visit g i).mem.dram = s.mem.dram ∧
    (s.visit g i).link = s.link ∧ (s.visit g i).faults = s.faults ∧ (s.visit g i).pins = s.pins ∧ (s.visit g i).free = s.free := by
  unfold State.visit; repeat' split
  all_goals simp

/-- What `State.withdrawOf` leaves alone. -/
@[simp] theorem withdrawOf_frame (g : GroupId) (b : BusId) :
    (s.withdrawOf g b).pending = s.pending ∧ (s.withdrawOf g b).resetHeld = s.resetHeld ∧ (s.withdrawOf g b).straps = s.straps ∧
    (s.withdrawOf g b).lane = s.lane ∧ (s.withdrawOf g b).word = s.word ∧ (s.withdrawOf g b).mix.buses = s.mix.buses ∧
    (s.withdrawOf g b).mix.xp = s.mix.xp ∧ (s.withdrawOf g b).mix.routes = s.mix.routes ∧
    (s.withdrawOf g b).mem.lines = s.mem.lines ∧ (s.withdrawOf g b).mem.clearing = s.mem.clearing ∧
    (s.withdrawOf g b).mem.readQ = s.mem.readQ ∧ (s.withdrawOf g b).mem.writeQ = s.mem.writeQ ∧
    (s.withdrawOf g b).mem.openRow = s.mem.openRow ∧ (s.withdrawOf g b).mem.access = s.mem.access ∧
    (s.withdrawOf g b).mem.refreshDue = s.mem.refreshDue ∧ (s.withdrawOf g b).mem.dram = s.mem.dram ∧
    (s.withdrawOf g b).link = s.link ∧ (s.withdrawOf g b).faults = s.faults ∧ (s.withdrawOf g b).pins = s.pins ∧
    (s.withdrawOf g b).free = s.free := by
  unfold State.withdrawOf; repeat' split
  all_goals simp

/-- All that a withdrawal can reach (R75, R139). -/
@[simp] theorem withdraw_frame (b : BusId) :
    (s.withdraw b).pending = s.pending ∧ (s.withdraw b).resetHeld = s.resetHeld ∧ (s.withdraw b).straps = s.straps ∧
    (s.withdraw b).lane = s.lane ∧ (s.withdraw b).word = s.word ∧ (s.withdraw b).mix.buses = s.mix.buses ∧
    (s.withdraw b).mix.xp = s.mix.xp ∧ (s.withdraw b).mix.routes = s.mix.routes ∧ (s.withdraw b).mem.lines = s.mem.lines ∧
    (s.withdraw b).mem.clearing = s.mem.clearing ∧ (s.withdraw b).mem.readQ = s.mem.readQ ∧
    (s.withdraw b).mem.writeQ = s.mem.writeQ ∧ (s.withdraw b).mem.openRow = s.mem.openRow ∧
    (s.withdraw b).mem.access = s.mem.access ∧ (s.withdraw b).mem.refreshDue = s.mem.refreshDue ∧
    (s.withdraw b).mem.dram = s.mem.dram ∧ (s.withdraw b).link = s.link ∧ (s.withdraw b).faults = s.faults ∧
    (s.withdraw b).pins = s.pins ∧ (s.withdraw b).free = s.free := by
  simp [State.withdraw]

/-- What `State.freeDram` leaves alone. -/
@[simp] theorem freeDram_frame :
    (s.freeDram).pending = s.pending ∧ (s.freeDram).resetHeld = s.resetHeld ∧ (s.freeDram).straps = s.straps ∧
    (s.freeDram).lane = s.lane ∧ (s.freeDram).word = s.word ∧ (s.freeDram).mix = s.mix ∧ (s.freeDram).cues = s.cues ∧
    (s.freeDram).mem.lines = s.mem.lines ∧ (s.freeDram).mem.clearing = s.mem.clearing ∧
    (s.freeDram).mem.readWait = s.mem.readWait ∧ (s.freeDram).mem.writeWait = s.mem.writeWait ∧
    (s.freeDram).mem.dram = s.mem.dram ∧ (s.freeDram).link = s.link ∧ (s.freeDram).faults = s.faults ∧ (s.freeDram).pins = s.pins ∧
    (s.freeDram).free = s.free := by
  simp [State.freeDram]

/-- What `State.clearStep` leaves alone. -/
@[simp] theorem clearStep_frame (b : BusId) (l : Line) (p : Nat) :
    (s.clearStep b l p).pending = s.pending ∧ (s.clearStep b l p).resetHeld = s.resetHeld ∧ (s.clearStep b l p).straps = s.straps ∧
    (s.clearStep b l p).lane = s.lane ∧ (s.clearStep b l p).word = s.word ∧ (s.clearStep b l p).mix = s.mix ∧
    (s.clearStep b l p).cues = s.cues ∧ (s.clearStep b l p).mem.readWait = s.mem.readWait ∧
    (s.clearStep b l p).mem.writeWait = s.mem.writeWait ∧ (s.clearStep b l p).mem.dram = s.mem.dram ∧
    (s.clearStep b l p).link.requests = s.link.requests ∧ (s.clearStep b l p).link.replies = s.link.replies ∧
    (s.clearStep b l p).link.overrun = s.link.overrun ∧ (s.clearStep b l p).link.held = s.link.held ∧
    (s.clearStep b l p).link.addressAck = s.link.addressAck ∧ (s.clearStep b l p).link.enable = s.link.enable ∧
    (s.clearStep b l p).link.twoLine = s.link.twoLine ∧ (s.clearStep b l p).faults = s.faults ∧ (s.clearStep b l p).pins = s.pins ∧
    (s.clearStep b l p).free = s.free := by
  unfold State.clearStep; dsimp only; split <;> simp

/-- What `State.clipBus` leaves alone. -/
@[simp] theorem clipBus_frame (b : BusId) :
    (s.clipBus b).pending = s.pending ∧ (s.clipBus b).resetHeld = s.resetHeld ∧ (s.clipBus b).straps = s.straps ∧
    (s.clipBus b).lane = s.lane ∧ (s.clipBus b).word = s.word ∧ (s.clipBus b).mix.xp = s.mix.xp ∧
    (s.clipBus b).mix.routes = s.mix.routes ∧ (s.clipBus b).mix.passes = s.mix.passes ∧ (s.clipBus b).cues = s.cues ∧
    (s.clipBus b).mem = s.mem ∧ (s.clipBus b).link.requests = s.link.requests ∧ (s.clipBus b).link.replies = s.link.replies ∧
    (s.clipBus b).link.overrun = s.link.overrun ∧ (s.clipBus b).link.held = s.link.held ∧
    (s.clipBus b).link.addressAck = s.link.addressAck ∧ (s.clipBus b).link.enable = s.link.enable ∧
    (s.clipBus b).link.twoLine = s.link.twoLine ∧ (s.clipBus b).faults = s.faults ∧ (s.clipBus b).pins = s.pins ∧
    (s.clipBus b).free = s.free := by
  unfold State.clipBus; repeat' split
  all_goals simp

/-- What `State.endRamp` leaves alone. -/
@[simp] theorem endRamp_frame (e : Entry) :
    (s.endRamp e).pending = s.pending ∧ (s.endRamp e).resetHeld = s.resetHeld ∧ (s.endRamp e).straps = s.straps ∧
    (s.endRamp e).lane = s.lane ∧ (s.endRamp e).word = s.word ∧ (s.endRamp e).mix.xp = s.mix.xp ∧
    (s.endRamp e).mix.routes = s.mix.routes ∧ (s.endRamp e).mix.passes = s.mix.passes ∧ (s.endRamp e).mem = s.mem ∧
    (s.endRamp e).link.requests = s.link.requests ∧ (s.endRamp e).link.replies = s.link.replies ∧
    (s.endRamp e).link.overrun = s.link.overrun ∧ (s.endRamp e).link.held = s.link.held ∧
    (s.endRamp e).link.addressAck = s.link.addressAck ∧ (s.endRamp e).link.enable = s.link.enable ∧
    (s.endRamp e).link.twoLine = s.link.twoLine ∧ (s.endRamp e).faults = s.faults ∧ (s.endRamp e).pins = s.pins ∧
    (s.endRamp e).free = s.free := by
  unfold State.endRamp; dsimp only; split <;> simp

/-- What `State.withdrawCues` leaves alone. -/
@[simp] theorem withdrawCues_frame (tags : List Byte) :
    (s.withdrawCues tags).pending = s.pending ∧ (s.withdrawCues tags).resetHeld = s.resetHeld ∧
    (s.withdrawCues tags).straps = s.straps ∧ (s.withdrawCues tags).lane = s.lane ∧ (s.withdrawCues tags).word = s.word ∧
    (s.withdrawCues tags).mix.routes = s.mix.routes ∧ (s.withdrawCues tags).mix.passes = s.mix.passes ∧
    (s.withdrawCues tags).mem = s.mem ∧ (s.withdrawCues tags).link = s.link ∧ (s.withdrawCues tags).faults = s.faults ∧
    (s.withdrawCues tags).pins = s.pins ∧ (s.withdrawCues tags).free = s.free := by
  simp [State.withdrawCues]

/-- What `State.resetReference` leaves alone. -/
@[simp] theorem resetReference_frame (k : PinId) :
    (s.resetReference k).pending = s.pending ∧ (s.resetReference k).resetHeld = s.resetHeld ∧
    (s.resetReference k).straps = s.straps ∧ (s.resetReference k).lane = s.lane ∧ (s.resetReference k).word = s.word ∧
    (s.resetReference k).mix = s.mix ∧ (s.resetReference k).cues = s.cues ∧ (s.resetReference k).mem = s.mem ∧
    (s.resetReference k).link = s.link ∧ (s.resetReference k).faults = s.faults ∧ (s.resetReference k).free = s.free := by
  simp [State.resetReference]

/-- What `State.armCues` leaves alone. -/
@[simp] theorem armCues_frame (k : PinId) :
    (s.armCues k).pending = s.pending ∧ (s.armCues k).resetHeld = s.resetHeld ∧ (s.armCues k).straps = s.straps ∧
    (s.armCues k).lane = s.lane ∧ (s.armCues k).word = s.word ∧ (s.armCues k).mix = s.mix ∧ (s.armCues k).mem = s.mem ∧
    (s.armCues k).link = s.link ∧ (s.armCues k).faults = s.faults ∧ (s.armCues k).pins = s.pins ∧ (s.armCues k).free = s.free := by
  simp [State.armCues]

/-- What `State.judgeEdge` leaves alone. -/
@[simp] theorem judgeEdge_frame (k : PinId) (high : Bool) :
    (s.judgeEdge k high).pending = s.pending ∧ (s.judgeEdge k high).resetHeld = s.resetHeld ∧
    (s.judgeEdge k high).straps = s.straps ∧ (s.judgeEdge k high).lane = s.lane ∧ (s.judgeEdge k high).word = s.word ∧
    (s.judgeEdge k high).mix = s.mix ∧ (s.judgeEdge k high).mem = s.mem ∧ (s.judgeEdge k high).link.requests = s.link.requests ∧
    (s.judgeEdge k high).link.replies = s.link.replies ∧ (s.judgeEdge k high).link.overrun = s.link.overrun ∧
    (s.judgeEdge k high).link.held = s.link.held ∧ (s.judgeEdge k high).link.addressAck = s.link.addressAck ∧
    (s.judgeEdge k high).link.enable = s.link.enable ∧ (s.judgeEdge k high).link.twoLine = s.link.twoLine ∧
    (s.judgeEdge k high).faults = s.faults ∧ (s.judgeEdge k high).pins = s.pins ∧ (s.judgeEdge k high).free = s.free := by
  unfold State.judgeEdge; repeat' split
  all_goals simp

/-- What `State.sense` leaves alone. -/
@[simp] theorem sense_frame (k : PinId) :
    (s.sense k).pending = s.pending ∧ (s.sense k).resetHeld = s.resetHeld ∧ (s.sense k).straps = s.straps ∧
    (s.sense k).lane = s.lane ∧ (s.sense k).word = s.word ∧ (s.sense k).mix = s.mix ∧ (s.sense k).mem = s.mem ∧
    (s.sense k).link.requests = s.link.requests ∧ (s.sense k).link.replies = s.link.replies ∧
    (s.sense k).link.overrun = s.link.overrun ∧ (s.sense k).link.held = s.link.held ∧
    (s.sense k).link.addressAck = s.link.addressAck ∧ (s.sense k).link.enable = s.link.enable ∧
    (s.sense k).link.twoLine = s.link.twoLine ∧ (s.sense k).faults = s.faults ∧ (s.sense k).free = s.free := by
  unfold State.sense; dsimp only; split <;> simp

/-- All that the edits of a cue can reach. -/
@[simp] theorem applyEdits_frame (x : CueContext) (es : List Edit) :
    (es.foldl (fun v e => State.applyEdit v x e) s).pending = s.pending ∧
    (es.foldl (fun v e => State.applyEdit v x e) s).resetHeld = s.resetHeld ∧
    (es.foldl (fun v e => State.applyEdit v x e) s).straps = s.straps ∧
    (es.foldl (fun v e => State.applyEdit v x e) s).lane = s.lane ∧ (es.foldl (fun v e => State.applyEdit v x e) s).word = s.word ∧
    (es.foldl (fun v e => State.applyEdit v x e) s).mix.passes = s.mix.passes ∧
    (es.foldl (fun v e => State.applyEdit v x e) s).mem.clearing = s.mem.clearing ∧
    (es.foldl (fun v e => State.applyEdit v x e) s).mem.readQ = s.mem.readQ ∧
    (es.foldl (fun v e => State.applyEdit v x e) s).mem.writeQ = s.mem.writeQ ∧
    (es.foldl (fun v e => State.applyEdit v x e) s).mem.readWait = s.mem.readWait ∧
    (es.foldl (fun v e => State.applyEdit v x e) s).mem.writeWait = s.mem.writeWait ∧
    (es.foldl (fun v e => State.applyEdit v x e) s).mem.openRow = s.mem.openRow ∧
    (es.foldl (fun v e => State.applyEdit v x e) s).mem.access = s.mem.access ∧
    (es.foldl (fun v e => State.applyEdit v x e) s).mem.refreshDue = s.mem.refreshDue ∧
    (es.foldl (fun v e => State.applyEdit v x e) s).mem.dram = s.mem.dram ∧
    (es.foldl (fun v e => State.applyEdit v x e) s).link.requests = s.link.requests ∧
    (es.foldl (fun v e => State.applyEdit v x e) s).link.replies = s.link.replies ∧
    (es.foldl (fun v e => State.applyEdit v x e) s).link.overrun = s.link.overrun ∧
    (es.foldl (fun v e => State.applyEdit v x e) s).link.held = s.link.held ∧
    (es.foldl (fun v e => State.applyEdit v x e) s).link.addressAck = s.link.addressAck ∧
    (es.foldl (fun v e => State.applyEdit v x e) s).link.enable = s.link.enable ∧
    (es.foldl (fun v e => State.applyEdit v x e) s).link.twoLine = s.link.twoLine ∧
    (es.foldl (fun v e => State.applyEdit v x e) s).pins = s.pins ∧ (es.foldl (fun v e => State.applyEdit v x e) s).free = s.free := by
  exact ⟨(foldl_proj _ (fun t : State => t.pending) (fun t e => by simp) _ _),
    (foldl_proj _ (fun t : State => t.resetHeld) (fun t e => by simp) _ _),
    (foldl_proj _ (fun t : State => t.straps) (fun t e => by simp) _ _),
    (foldl_proj _ (fun t : State => t.lane) (fun t e => by simp) _ _),
    (foldl_proj _ (fun t : State => t.word) (fun t e => by simp) _ _),
    (foldl_proj _ (fun t : State => t.mix.passes) (fun t e => by simp) _ _),
    (foldl_proj _ (fun t : State => t.mem.clearing) (fun t e => by simp) _ _),
    (foldl_proj _ (fun t : State => t.mem.readQ) (fun t e => by simp) _ _),
    (foldl_proj _ (fun t : State => t.mem.writeQ) (fun t e => by simp) _ _),
    (foldl_proj _ (fun t : State => t.mem.readWait) (fun t e => by simp) _ _),
    (foldl_proj _ (fun t : State => t.mem.writeWait) (fun t e => by simp) _ _),
    (foldl_proj _ (fun t : State => t.mem.openRow) (fun t e => by simp) _ _),
    (foldl_proj _ (fun t : State => t.mem.access) (fun t e => by simp) _ _),
    (foldl_proj _ (fun t : State => t.mem.refreshDue) (fun t e => by simp) _ _),
    (foldl_proj _ (fun t : State => t.mem.dram) (fun t e => by simp) _ _),
    (foldl_proj _ (fun t : State => t.link.requests) (fun t e => by simp) _ _),
    (foldl_proj _ (fun t : State => t.link.replies) (fun t e => by simp) _ _),
    (foldl_proj _ (fun t : State => t.link.overrun) (fun t e => by simp) _ _),
    (foldl_proj _ (fun t : State => t.link.held) (fun t e => by simp) _ _),
    (foldl_proj _ (fun t : State => t.link.addressAck) (fun t e => by simp) _ _),
    (foldl_proj _ (fun t : State => t.link.enable) (fun t e => by simp) _ _),
    (foldl_proj _ (fun t : State => t.link.twoLine) (fun t e => by simp) _ _),
    (foldl_proj _ (fun t : State => t.pins) (fun t e => by simp) _ _),
    (foldl_proj _ (fun t : State => t.free) (fun t e => by simp) _ _)⟩

/-- All that a taken cue can reach (R65, R98, R120). -/
@[simp] theorem takeCue_frame (g : GroupId) (n : FrameNo) (x : Byte) :
    (State.takeCue g n s x).pending = s.pending ∧ (State.takeCue g n s x).resetHeld = s.resetHeld ∧
    (State.takeCue g n s x).straps = s.straps ∧ (State.takeCue g n s x).lane = s.lane ∧ (State.takeCue g n s x).word = s.word ∧
    (State.takeCue g n s x).mix.passes = s.mix.passes ∧ (State.takeCue g n s x).mem.clearing = s.mem.clearing ∧
    (State.takeCue g n s x).mem.readQ = s.mem.readQ ∧ (State.takeCue g n s x).mem.writeQ = s.mem.writeQ ∧
    (State.takeCue g n s x).mem.readWait = s.mem.readWait ∧ (State.takeCue g n s x).mem.writeWait = s.mem.writeWait ∧
    (State.takeCue g n s x).mem.openRow = s.mem.openRow ∧ (State.takeCue g n s x).mem.access = s.mem.access ∧
    (State.takeCue g n s x).mem.refreshDue = s.mem.refreshDue ∧ (State.takeCue g n s x).mem.dram = s.mem.dram ∧
    (State.takeCue g n s x).link.requests = s.link.requests ∧ (State.takeCue g n s x).link.replies = s.link.replies ∧
    (State.takeCue g n s x).link.overrun = s.link.overrun ∧ (State.takeCue g n s x).link.held = s.link.held ∧
    (State.takeCue g n s x).link.addressAck = s.link.addressAck ∧ (State.takeCue g n s x).link.enable = s.link.enable ∧
    (State.takeCue g n s x).link.twoLine = s.link.twoLine ∧ (State.takeCue g n s x).pins = s.pins ∧
    (State.takeCue g n s x).free = s.free := by
  unfold State.takeCue; dsimp only; repeat' split
  all_goals simp

end Sys2Proof.Machine
end

