-- ==== Sys2Proof/Laws/Executor.lean ====
section
/-! SUPPORT. What the executor does with the frame it takes (R147, R150, R151). -/

namespace Sys2Proof.Machine

/-- The state when the oldest frame has left the request queue and its reply has not yet been made. -/
def State.taken (s : State) : State := { s with link := { s.link with requests := s.link.requests.tail } }

@[simp] theorem taken_link (s : State) : s.taken.link = { s.link with requests := s.link.requests.tail } := rfl

/-- Nothing but the request queue differs while the frame is being carried out. -/
@[simp] theorem taken_frame (s : State) :
    s.taken.pending = s.pending ∧ s.taken.resetHeld = s.resetHeld ∧ s.taken.straps = s.straps ∧ s.taken.lane = s.lane ∧
    s.taken.word = s.word ∧ s.taken.mix = s.mix ∧ s.taken.cues = s.cues ∧ s.taken.mem = s.mem ∧ s.taken.faults = s.faults ∧
    s.taken.pins = s.pins ∧ s.taken.free = s.free :=
  ⟨rfl, rfl, rfl, rfl, rfl, rfl, rfl, rfl, rfl, rfl, rfl⟩

/-- When the executor takes no frame of the kind asked for, nothing changes; otherwise the request's answer is replied (R150). -/
theorem takeFrame_cases (s : State) (takes : ReceivedFrame → Bool) (run : ReceivedFrame → State → Answer) :
    s.takeFrame takes run = s ∨
    ∃ f, s.Takes f ∧ takes f = true ∧
      s.takeFrame takes run = (run f s.taken).state.makeReply f (run f s.taken).status (run f s.taken).payload := by
  unfold State.takeFrame
  split
  · exact .inl rfl
  · rename_i f hf
    unfold State.takeable at hf
    split at hf
    · rename_i hl
      split
      · rename_i ht
        exact .inr ⟨f, ⟨hl, hf⟩, ht, rfl⟩
      · exact .inl rfl
    · cases hf

/-- The executor's effect when it takes a frame of the kind asked for. -/
theorem takeFrame_eq {s : State} {f : ReceivedFrame} (h : s.Takes f) {takes : ReceivedFrame → Bool} (ht : takes f = true)
    (run : ReceivedFrame → State → Answer) :
    s.takeFrame takes run = (run f s.taken).state.makeReply f (run f s.taken).status (run f s.taken).payload := by
  simp [State.takeFrame, State.takeable, h.1, h.2, ht, State.taken]

/-- The executor's effect when the request is of the kind asked for. -/
theorem takeRequest_eq {s : State} {f : ReceivedFrame} {kind : RequestKind} {p : List Byte} (h : s.Asks f kind p)
    (run : List Byte → State → Answer) :
    s.takeRequest kind run = (run p s.taken).state.makeReply f (run p s.taken).status (run p s.taken).payload := by
  obtain ⟨h1, h2, h3⟩ := h
  have := takeFrame_eq h1 (takes := ReceivedFrame.isKind kind) (by simp [ReceivedFrame.isKind, h2]) (fun f t => run f.payload t)
  rw [h3] at this
  exact this

/-- A reply joins a state whose link differs from `l` by the taken frame alone. -/
theorem makeReply_eq {t : State} {l : Link} (h : t.link = { l with requests := l.requests.tail }) (f : ReceivedFrame)
    (st : Status) (p : List Byte) : t.makeReply f st p = { t with link := l.answered f st p } := by
  simp [State.makeReply, Link.answered, h, replyKind, statusByte]

/-- A reply to a frame that changed nothing else. -/
@[simp] theorem taken_makeReply (s : State) (f : ReceivedFrame) (st : Status) (p : List Byte) :
    s.taken.makeReply f st p = s.answered f st p := by
  rw [makeReply_eq (l := s.link) rfl]
  rfl

/-- A request that is refused with a status leaves everything else as it was. -/
theorem takeRequest_refused {s : State} {f : ReceivedFrame} {kind : RequestKind} {p : List Byte} (h : s.Asks f kind p)
    {run : List Byte → State → Answer} {st : Status} (hr : run p s.taken = s.taken.refuse st) :
    s.takeRequest kind run = s.answered f st [] := by
  rw [takeRequest_eq h, hr]
  simp [State.refuse]

/-- A request that is answered OK, changing nothing else. -/
theorem takeRequest_reported {s : State} {f : ReceivedFrame} {kind : RequestKind} {p : List Byte} (h : s.Asks f kind p)
    {run : List Byte → State → Answer} {out : List Byte} (hr : run p s.taken = s.taken.accept out) :
    s.takeRequest kind run = s.answered f .ok out := by
  rw [takeRequest_eq h, hr]
  simp [State.accept]

/-- A request that is carried out: the block's new state with the reply in the queue. -/
theorem takeRequest_accepted {s t : State} {f : ReceivedFrame} {kind : RequestKind} {p : List Byte} (h : s.Asks f kind p)
    {run : List Byte → State → Answer} {l : Link} {out : List Byte} (hr : run p s.taken = t.accept out)
    (hl : t.link = { l with requests := l.requests.tail }) :
    s.takeRequest kind run = { t with link := l.answered f .ok out } := by
  rw [takeRequest_eq h, hr]
  simp only [State.accept]
  exact makeReply_eq hl f .ok out

/-! ### What an occurrence and an answer have to do with each other -/

/-- An occurrence does not look at the queues. -/
theorem Link.occur_answered (l : Link) (cls : NoticeClass) (p : NoticePayload) :
    ({ l with requests := l.requests.tail } : Link).occur cls p =
      { l.occur cls p with requests := (l.occur cls p).requests.tail } := by
  unfold Link.occur Link.enabled Link.notice
  split <;> rfl

/-- A notice that leaves the notice set does not look at the queues. -/
theorem Link.dropNotice_answered (l : Link) (cls : NoticeClass) :
    ({ l with requests := l.requests.tail } : Link).dropNotice cls =
      { l.dropNotice cls with requests := (l.dropNotice cls).requests.tail } := rfl

/-! ### The notice of a class -/

theorem NoticeClass.index_inj {a b : NoticeClass} : a.index = b.index ↔ a = b := by
  cases a <;> cases b <;> decide

/-- The notices after one is replaced. -/
theorem notice_set (l : Link) (a b : NoticeClass) (x : Option PendingNotice) :
    (l.notices.set a.index x)[b.index] = if b = a then x else l.notice b := by
  by_cases h : b = a
  · subst h; simp
  · have : a.index.val ≠ b.index.val := fun e => h (NoticeClass.index_inj.1 (Fin.ext e)).symm
    simp [Link.notice, h, this]

/-- The notices after an occurrence (R157, R158). -/
theorem Link.notice_occur (l : Link) (cls d : NoticeClass) (p : NoticePayload) :
    (l.occur cls p).notice d =
      if l.enabled cls = true ∧ d = cls then
        some (match l.notice cls with
          | none => { payload := p, more := false }
          | some old => { payload := old.payload.merge p, more := true })
      else l.notice d := by
  unfold Link.occur
  by_cases h : l.enabled cls = true
  · simp only [h, if_true, true_and]
    exact notice_set l cls d _
  · simp [h]

/-- The notices after one leaves the notice set (R159). -/
theorem Link.notice_dropNotice (l : Link) (cls d : NoticeClass) :
    (l.dropNotice cls).notice d = if d = cls then none else l.notice d := notice_set l cls d none

end Sys2Proof.Machine
end

