-- ==== Sys2Proof/Laws/Counts.lean ====
section
/-! SUPPORT. The bus counts after the operations that move them (R42, R50, R55, R87). -/

namespace Sys2Proof.Machine

variable (s : State)

/-- A count that each of some steps lowers by one where it concerns bus b. -/
theorem foldl_modifyBus {α : Type} (bus : α → BusId) (f : BusRecord → BusRecord) (l : List α) (b : BusId) :
    (l.foldl (fun t a => t.modifyBus (bus a) f) s).bus b =
      Nat.repeat f (l.filter fun a => decide (bus a = b)).length (s.bus b) := by
  induction l generalizing s with
  | nil => rfl
  | cons a rest ih =>
    rw [List.foldl_cons, ih, modifyBus_bus]
    by_cases h : bus a = b
    · subst h
      have shift : ∀ (n : Nat) (r : BusRecord), Nat.repeat f n (f r) = f (Nat.repeat f n r) := by
        intro n
        induction n with
        | zero => intro r; rfl
        | succ n ih => intro r; simp only [Nat.repeat, ih]
      simp only [if_true, List.filter_cons, decide_true, List.length_cons, Nat.repeat, shift]
    · simp [h, Ne.symm h]

/-- Edits that enter the pool raise the hold count of each bus by as many as name it (R87). -/
theorem takeHolds_bus (es : List Edit) (b : BusId) : (s.takeHolds es).bus b =
    { s.bus b with holdCount := (s.bus b).holdCount + (es.filter fun e => decide (e.bus = b)).length } := by
  rw [State.takeHolds, foldl_modifyBus s Edit.bus]
  generalize (es.filter _).length = n
  induction n with
  | zero => rfl
  | succ n ih => simp only [Nat.repeat, ih, Nat.add_assoc]

/-- Edits that leave the pool lower the hold count of each bus by as many as name it (R87). -/
theorem releaseHolds_bus (es : List Edit) (b : BusId) : (s.releaseHolds es).bus b =
    { s.bus b with holdCount := (s.bus b).holdCount - (es.filter fun e => decide (e.bus = b)).length } := by
  rw [State.releaseHolds, foldl_modifyBus s Edit.bus]
  generalize (es.filter _).length = n
  induction n with
  | zero => rfl
  | succ n ih => simp only [Nat.repeat, ih, Nat.sub_sub]

/-- The owned channel counts after a route change (R55). -/
theorem setRoute_bus (c : Channel) (r : Route) (b : BusId) : (s.setRoute c r).bus b =
    { s.bus b with ownedCount := (s.bus b).ownedCount - (if (s.route c).owner = some b then 1 else 0)
                                  + (if r.owner = some b then 1 else 0) } := by
  have e : (s.setRoute c r).bus b = ((s.lowerOwned (s.route c).owner).raiseOwned r.owner).bus b := rfl
  rw [e]
  cases h1 : (s.route c).owner with
  | none => cases h2 : r.owner with
    | none => simp [State.lowerOwned, State.raiseOwned]
    | some y =>
      simp only [State.lowerOwned, State.raiseOwned, modifyBus_bus]
      by_cases hb : b = y
      · subst hb; simp
      · simp [hb, Ne.symm hb]
  | some x => cases h2 : r.owner with
    | none =>
      simp only [State.lowerOwned, State.raiseOwned, modifyBus_bus]
      by_cases hb : b = x
      · subst hb; simp
      · simp [hb, Ne.symm hb]
    | some y =>
      simp only [State.lowerOwned, State.raiseOwned, modifyBus_bus]
      by_cases hb : b = x <;> by_cases hy : b = y <;> (try subst hb) <;> (try subst hy) <;> simp_all [Ne.symm]

/-- The route table after a route change (R55). -/
theorem setRoute_route (c d : Channel) (r : Route) : (s.setRoute c r).route d = if d = c then r else s.route d := by
  have e : (s.setRoute c r).mix.routes = s.mix.routes.set c r := by
    simp [State.setRoute]
  by_cases h : d = c
  · subst h; simp [State.route, e]
  · have : c.val ≠ d.val := fun x => h (Fin.ext x.symm)
    simp [State.route, e, h, this]

end Sys2Proof.Machine
end

