-- ==== Sys2Proof/Laws/Lanes.lean ====
section
/-! SUPPORT. What an OUT lane's bit positions hold. -/

namespace Sys2Proof.Machine

/-- A slot of a quad names its channel (R173). -/
theorem slotChannel_channelSlot (c : Channel) : slotChannel (channelQuad c) (channelSlot c) = c := by
  revert c; decide

/-- A line word has at least 16 bits (R1). -/
theorem sixteen_le_bits (len : WordLength) : 16 ≤ len.bits := by cases len <;> decide

/-- Bit j of word i of a lane is bit j of the line word of its slot's sample, the most significant first (R3, R36). -/
theorem wordBit_word (p : LanePos) (l : LanePlan) (d : Nat) (side : Side) (v : Vector Sample 16) {i j : Nat} {c : Channel}
    (hi : i < l.granted) (hj : j < l.wordLength.bits) (hc : channelSlot c = wordSlot p side i) :
    wordBit (channelQuad c) p l d side v (d + i * l.wordLength.bits + j) =
      (wordOfSample l.wordLength v[c]).getLsbD (l.wordLength.bits - 1 - j) := by
  have hsub : d + i * l.wordLength.bits + j - d = i * l.wordLength.bits + j := by omega
  have hdiv : (i * l.wordLength.bits + j) / l.wordLength.bits = i := by
    rw [Nat.mul_comm, Nat.mul_add_div (by omega), Nat.div_eq_of_lt hj, Nat.add_zero]
  have hmod : (i * l.wordLength.bits + j) % l.wordLength.bits = j := by
    rw [Nat.mul_comm, Nat.mul_add_mod, Nat.mod_eq_of_lt hj]
  have hlt : i * l.wordLength.bits + j < l.granted * l.wordLength.bits :=
    calc i * l.wordLength.bits + j < (i + 1) * l.wordLength.bits := by rw [Nat.succ_mul]; omega
      _ ≤ l.granted * l.wordLength.bits := Nat.mul_le_mul_right _ hi
  unfold wordBit
  simp only [hsub, hdiv, hmod, ← hc, slotChannel_channelSlot]
  rw [if_pos ⟨by omega, by omega⟩]
  rfl

/-- A bit position that no word covers is low (R3). -/
theorem wordBit_uncovered (q : QuadId) (p : LanePos) (l : LanePlan) (d : Nat) (side : Side) (v : Vector Sample 16) {position : Nat}
    (h : position < d ∨ d + l.granted * l.wordLength.bits ≤ position) : wordBit q p l d side v position = false := by
  unfold wordBit
  exact if_neg (by omega)

/-- An OUT lane that carries words has the level its half-frame's words give it (R3, R36). -/
theorem laneLevel_words {s : State} {q : QuadId} {p : LanePos} {plan format : Plan} {l : LanePlan} (hw : s.laneDrive q p = .words)
    (hp : (s.quad q).startedPlan = some plan) (hl : plan.lanes[p] = some l)
    (hf : (s.quad (s.groupOfQuad q)).startedPlan = some format) (side : Side) (position : Nat) :
    s.laneLevel q p side position = some (s.shiftedLevel q p l format side position) := by
  simp [State.laneLevel, hw, hp, hf, hl]

end Sys2Proof.Machine
end

