-- ==== Sys2Proof/Laws/Table.lean ====
section
/-! SUPPORT. The crosspoint table: looking an entry up, putting one in and taking one out (R45 to R50), and the table after entries are removed one after another. -/

namespace Sys2Proof.Machine

/-- The place in the order of the table tells the pair. -/
theorem xpKey_inj {c d : Channel} {a b : BusId} : xpKey c a = xpKey d b ↔ c = d ∧ a = b := by
  unfold xpKey
  constructor
  · intro h; exact ⟨Fin.ext (by omega), Fin.ext (by omega)⟩
  · rintro ⟨rfl, rfl⟩; rfl

/-- The entry that is looked up is the pair's and is in the table. -/
theorem xpFind_some {xp : List Entry} {c : Channel} {b : BusId} {e : Entry} (h : xpFind xp c b = some e) :
    e ∈ xp ∧ e.channel = c ∧ e.bus = b := by
  have h1 := List.find?_some h
  exact ⟨List.mem_of_find?_eq_some h, by simpa using h1⟩

theorem xpFind_none {xp : List Entry} {c : Channel} {b : BusId} :
    xpFind xp c b = none ↔ ∀ e ∈ xp, ¬(e.channel = c ∧ e.bus = b) := by
  simp [xpFind]

theorem xpFind_cons (e : Entry) (xp : List Entry) (c : Channel) (b : BusId) :
    xpFind (e :: xp) c b = if e.channel = c ∧ e.bus = b then some e else xpFind xp c b := by
  simp only [xpFind, List.find?_cons]
  split <;> simp_all

/-- The order of the table, over a list of entries. -/
abbrev InOrder (xp : List Entry) : Prop := xp.Pairwise fun e f => xpKey e.channel e.bus < xpKey f.channel f.bus

/-- In an ordered table the entry of a pair is the only one. -/
theorem xpFind_mem {xp : List Entry} (h : InOrder xp) {e : Entry} (he : e ∈ xp) : xpFind xp e.channel e.bus = some e := by
  induction xp with
  | nil => cases he
  | cons d rest ih =>
    rw [InOrder, List.pairwise_cons] at h
    rw [xpFind_cons]
    rcases List.mem_cons.1 he with rfl | hr
    · simp
    · have hlt := h.1 e hr
      rw [if_neg, ih h.2 hr]
      rintro ⟨h1, h2⟩
      rw [h1, h2] at hlt
      exact absurd hlt (Nat.lt_irrefl _)

/-- Looking up after an entry is put in its place, in an ordered table. -/
theorem xpFind_put {xp : List Entry} (h : InOrder xp) (e : Entry) (c : Channel) (b : BusId) :
    xpFind (xpPut e xp) c b = if c = e.channel ∧ b = e.bus then some e else xpFind xp c b := by
  induction xp with
  | nil => simp only [xpPut, xpFind_cons, eq_comm]
  | cons d rest ih =>
    rw [InOrder, List.pairwise_cons] at h
    simp only [xpPut]
    split
    · rw [xpFind_cons]; simp only [eq_comm]
    · rename_i h1
      split
      · rename_i h2
        have hd := xpKey_inj.1 h2
        rw [xpFind_cons, xpFind_cons, ← hd.1, ← hd.2]
        by_cases h3 : e.channel = c ∧ e.bus = b
        · simp [h3]
        · simp only [h3, if_false]
          rw [if_neg fun x => h3 ⟨x.1.symm, x.2.symm⟩]
      · rename_i h2
        rw [xpFind_cons, xpFind_cons, ih h.2]
        by_cases h3 : c = e.channel ∧ b = e.bus
        · rw [if_pos h3, if_pos h3, if_neg]
          rintro ⟨h4, h5⟩
          exact h2 (xpKey_inj.2 ⟨h3.1.symm.trans h4.symm, h3.2.symm.trans h5.symm⟩)
        · rw [if_neg h3, if_neg h3]

theorem xpPut_mem {e f : Entry} {xp : List Entry} (h : f ∈ xpPut e xp) : f = e ∨ f ∈ xp := by
  induction xp with
  | nil => simpa [xpPut] using h
  | cons d rest ih =>
    simp only [xpPut] at h
    split at h
    · simpa using h
    · split at h
      · rcases List.mem_cons.1 h with h | h
        · exact .inl h
        · exact .inr (List.mem_cons_of_mem _ h)
      · rcases List.mem_cons.1 h with h | h
        · exact .inr (by simp [h])
        · rcases ih h with h | h
          · exact .inl h
          · exact .inr (List.mem_cons_of_mem _ h)

/-- Putting an entry in its place keeps the order. -/
theorem inOrder_put {xp : List Entry} (h : InOrder xp) (e : Entry) : InOrder (xpPut e xp) := by
  induction xp with
  | nil => simp [xpPut, InOrder]
  | cons d rest ih =>
    have h' := h
    rw [InOrder, List.pairwise_cons] at h
    simp only [xpPut]
    split
    · rename_i h1
      rw [InOrder, List.pairwise_cons]
      refine ⟨fun f hf => ?_, h'⟩
      rcases List.mem_cons.1 hf with rfl | hf
      · exact h1
      · exact Nat.lt_trans h1 (h.1 f hf)
    · split
      · rename_i h2
        rw [InOrder, List.pairwise_cons]
        exact ⟨fun f hf => by rw [h2]; exact h.1 f hf, h.2⟩
      · rename_i h1 h2
        rw [InOrder, List.pairwise_cons]
        refine ⟨fun f hf => ?_, ih h.2⟩
        rcases xpPut_mem hf with rfl | hf
        · omega
        · exact h.1 f hf

/-- A table grows by one entry when the pair had none, and keeps its length when it had one. -/
theorem length_put {xp : List Entry} (h : InOrder xp) (e : Entry) :
    (xpPut e xp).length = if (xpFind xp e.channel e.bus).isSome then xp.length else xp.length + 1 := by
  induction xp with
  | nil => rfl
  | cons d rest ih =>
    have h' := h
    rw [InOrder, List.pairwise_cons] at h
    simp only [xpPut]
    split
    · rename_i h1
      have : xpFind (d :: rest) e.channel e.bus = none := by
        rw [xpFind_none]
        rintro f hf ⟨h3, h4⟩
        rcases List.mem_cons.1 hf with rfl | hf
        · rw [h3, h4] at h1; exact Nat.lt_irrefl _ h1
        · have := h.1 f hf
          rw [h3, h4] at this
          omega
      simp [this]
    · split
      · rename_i h2
        have := xpKey_inj.1 h2
        simp [xpFind_cons, this.1, this.2]
      · rename_i h1 h2
        have : ¬(d.channel = e.channel ∧ d.bus = e.bus) := fun x => h2 (xpKey_inj.2 ⟨x.1.symm, x.2.symm⟩)
        simp only [List.length_cons, ih h.2, xpFind_cons, this, if_false]
        split <;> rfl

/-- Taking entries out keeps the order. -/
theorem inOrder_filter {xp : List Entry} (h : InOrder xp) (p : Entry → Bool) : InOrder (xp.filter p) :=
  List.Pairwise.sublist List.filter_sublist h

theorem xpFind_remove (xp : List Entry) (c d : Channel) (a b : BusId) :
    xpFind (xpRemove xp c a) d b = if d = c ∧ b = a then none else xpFind xp d b := by
  induction xp with
  | nil => simp [xpRemove, xpFind]
  | cons e rest ih =>
    have hr : xpRemove (e :: rest) c a =
        if e.channel = c ∧ e.bus = a then xpRemove rest c a else e :: xpRemove rest c a := by
      by_cases h : e.channel = c ∧ e.bus = a <;> simp [xpRemove, List.filter_cons, h]
    rw [hr, xpFind_cons]
    split
    · rename_i h1
      rw [ih]
      by_cases h2 : d = c ∧ b = a
      · simp [h2]
      · rw [if_neg h2, if_neg h2, if_neg]
        rintro ⟨h3, h4⟩
        exact h2 ⟨h3.symm.trans h1.1, h4.symm.trans h1.2⟩
    · rename_i h1
      rw [xpFind_cons, ih]
      by_cases h2 : d = c ∧ b = a
      · rw [if_pos h2, if_pos h2, if_neg]
        rw [h2.1, h2.2]; exact h1
      · rw [if_neg h2, if_neg h2]

/-! ### Entries removed one after another (R13, R59) -/

theorem removeEntry_xp (s : State) (e : Entry) (x : Option Byte) :
    (s.removeEntry e x).mix.xp = xpRemove s.mix.xp e.channel e.bus := by
  simp [State.removeEntry]

theorem removeEntry_bus (s : State) (e : Entry) (x : Option Byte) (b : BusId) :
    (s.removeEntry e x).bus b = if b = e.bus then { s.bus b with entryCount := (s.bus b).entryCount - 1 } else s.bus b := by
  have h : (s.removeEntry e x).mix.buses = ((s.setXp (xpRemove s.mix.xp e.channel e.bus)).lowerEntries e.bus).mix.buses := by
    simp [State.removeEntry]
  have h2 : (s.removeEntry e x).bus b = ((s.setXp (xpRemove s.mix.xp e.channel e.bus)).lowerEntries e.bus).bus b := by
    simp only [State.bus, h]
  rw [h2, State.lowerEntries, modifyBus_bus]
  by_cases hb : b = e.bus
  · subst hb; simp
  · simp [hb]

/-- The table after entries are removed one after another. -/
theorem removeEntries_xp (es : List Entry) (s : State) (x : Option Byte) :
    (es.foldl (fun v e => v.removeEntry e x) s).mix.xp =
      s.mix.xp.filter fun e => decide (∀ f ∈ es, ¬(e.channel = f.channel ∧ e.bus = f.bus)) := by
  induction es generalizing s with
  | nil => simp [List.filter_eq_self.2]
  | cons d rest ih =>
    rw [List.foldl_cons, ih, removeEntry_xp, xpRemove, List.filter_filter]
    congr 1
    funext e
    simp only [List.mem_cons, forall_eq_or_imp, Bool.decide_and, Bool.and_comm]

/-- The entry counts after entries are removed one after another. -/
theorem removeEntries_bus (es : List Entry) (s : State) (x : Option Byte) (b : BusId) :
    (es.foldl (fun v e => v.removeEntry e x) s).bus b =
      { s.bus b with entryCount := (s.bus b).entryCount - (es.filter fun e => decide (e.bus = b)).length } := by
  induction es generalizing s with
  | nil => rfl
  | cons d rest ih =>
    rw [List.foldl_cons, ih, removeEntry_bus]
    by_cases h : d.bus = b
    · subst h; simp [Nat.sub_sub, Nat.add_comm]
    · simp [h, Ne.symm h]

end Sys2Proof.Machine
end

