-- ==== Sys2Proof/WellFormed.lean ====
section
/-! DEFINITION. Which commands the outside world can give. Everything else an operand must meet is in its type. -/

namespace Sys2Proof

/-- A half-frame lasts at least one bit clock, since an edge is seen at a rising edge of the bit clock at which word select differs from its level at the previous one (R4).
A transfer that sends the whole of the longest outgoing frame may go on with filler, and a transfer never receives more bytes than it lasts: neither bounds an operand (R143, R144). -/
def Instr.wellFormed : Instr → Bool
  | .wordSelectEdge _ _ length => decide (1 ≤ length)
  | .partIdentify => true
  | .partReset => true
  | .pinSet => true
  | .pinRead => true
  | .noticeSet => true
  | .faultRead => true
  | .quadPlan => true
  | .quadStart => true
  | .laneRetire => true
  | .groupPowerStandby => true
  | .groupPowerActive => true
  | .groupMark => true
  | .groupRead => true
  | .busSet => true
  | .busRead => true
  | .clipClear => true
  | .xpRead => true
  | .routeRead => true
  | .routeClear => true
  | .cuePost => true
  | .cueCancel => true
  | .cueRead => true
  | .lineDefine => true
  | .lineClear => true
  | .lineRelease => true
  | .lineRead => true
  | .errorReply => true
  | .transferBegin _ => true
  | .twoWireWriteAddress _ => true
  | .transferEnd _ _ => true
  | .outgoingFrameComplete => true
  | .hardwareReset => true
  | .resetRelease _ => true
  | .wordComplete _ _ => true
  | .lossTimerExpiry _ => true
  | .frameStart _ => true
  | .cueStart _ => true
  | .gainStep _ => true
  | .accumulate _ => true
  | .exchangeVisit _ => true
  | .passReadOffer _ => true
  | .passWriteOffer _ => true
  | .dramReadComplete => true
  | .dramWriteComplete => true
  | .refreshDue => true
  | .refreshComplete => true
  | .clearWrite => true
  | .pinEdge _ _ => true

end Sys2Proof
end

