-- ==== Sys2Proof/Tests/Slice0.lean ====
section
/-! SUPPORT. The model's own tests: the ill-formed command, the spec's worked examples, and for every statement concrete states that meet its hypotheses. -/

namespace Sys2Proof.Tests

/-! One theorem at a time: many kernel evaluations at once take more threads than the build has room for. -/
set_option Elab.async false

open Sys2Proof.Machine

/-! ### Helpers -/

/-- A request frame with tag 7. -/
def req (kind : RequestKind) (p : List Byte) : ReceivedFrame := { outcome := .request kind, kind := kind.code, tag := 7, payload := p }

/-- A state whose request queue holds one request. -/
def asked (s : State) (kind : RequestKind) (p : List Byte) : State := { s with link := { s.link with requests := [req kind p] } }

/-- The state after a command that goes on. -/
def after (c : Instr) (s : State) : State :=
  match exec c s with
  | .next t => t
  | _ => s

/-- Why a command stops, if it does. -/
def faultOf (c : Instr) (s : State) : Option Fault :=
  match exec c s with
  | .fault r => some r
  | _ => none

/-- The status and payload of the newest reply. -/
def reply (s : State) : Option (Byte × List Byte) := s.link.replies.getLast?.map fun r => (r.status, r.payload)

/-- The plan of the worked example of Chapter 1. -/
def plan1 : Plan :=
  { lanes := #v[some ⟨.input, 4, 2, .w24⟩, none, some ⟨.output, 2, 1, .w32⟩, some ⟨.output, 1, 1, .w16⟩],
    halfLength := 64, firstBitDelay := true, polarity := .leftLow, joined := false }

/-- A group that is LOCKED in the right half-frame of a good frame. -/
def lockedGroup : ClockGroup :=
  { ClockGroup.reset with state := .locked, half := some ⟨.right, 0⟩, goodLeft := true, counter := 2000, lossTimer := true }

/-- A bus of group A. -/
def busA : BusRecord := { BusRecord.reset with group := some .A }

/-- Quad A runs the plan of Chapter 1 on a LOCKED group A; buses 2 and 3 are group A's; the outputs are FREE; the DRAM has 1 Mi words. -/
def live : State :=
  { State.reset with
    straps := ⟨false, false, false, false, true⟩
    lane := { LaneInterface.reset with quads := ⟨.started plan1, .unplanned⟩, groups := ⟨lockedGroup, ClockGroup.reset⟩ }
    mix := { MixEngine.reset with
      buses := ((Vector.replicate 16 BusRecord.reset).set 2 busA).set 3 busA
      routes := ((((Vector.replicate 16 Route.absent).set 4 .free).set 5 .free).set 6 .free).set 7 .free } }

/-- `live` with another clock group A. -/
def liveWith (G : ClockGroup) : State := live.setGroup .A G

/-- A pass of group A at a stage, over bus 2. -/
def pass2 (stage : Stage) (terms : List (Channel × Gain)) (progress : Progress) : Pass :=
  { frame := 500, samples := [(0, 1000001), (1, 333333), (2, 200000), (3, 0)],
    buses := [{ bus := 2, rounding := .convergent, overflow := .saturate, terms := terms, result := 41000, progress := progress }],
    outstanding := [], leftLocked := false, stage := stage, wait := none }

/-- A WAITING cue of group A. -/
def cueA (tag : Byte) (trigger : Trigger) (n : Nat) (edits : List Edit) : Cue :=
  { tag := tag, group := .A, trigger := trigger, armed := false, deferred := false, rampLength := n, edits := edits,
    state := .waiting, outstanding := 0 }

/-- An APPLYING cue of group A. -/
def applyingA (tag : Byte) (n outstanding : Nat) : Cue :=
  { cueA tag .next n [] with state := .applying, outstanding := outstanding }

/-- An entry on bus 2 or 3. -/
def entry (c : Channel) (b : BusId) (gain : Gain) (state : EntryState) : Entry := { channel := c, bus := b, gain := gain, state := state }

/-- `live` with a crosspoint table, its entry counts, and cues. -/
def liveXp (xp : List Entry) (cues : List Cue) : State :=
  { live with
    cues := cues
    mix := { live.mix with
      xp := xp
      buses := (live.mix.buses.set 2 { busA with entryCount := (xp.filter fun e => decide (e.bus = 2)).length }).set 3
        { busA with entryCount := (xp.filter fun e => decide (e.bus = 3)).length } } }

/-- `live` with a pass of group A in flight. -/
def flying (s : State) (p : Pass) : State := s.setPass .A (some p)

/-- An ACTIVE line of 256 words at 4096 with a delay. -/
def line256 (w d : Nat) : Line := { base := 4096, length := 256, writeIndex := w, delay := d, state := .active }

/-- `live` with a line on bus 2. -/
def lined (l : Line) : State := live.setLine 2 (some l)

/-- A fault of group B. -/
def slipB : FaultRecord := FaultRecord.of .slip .B 500

/-- A fault of group A. -/
def lateA (n : FrameNo) : FaultRecord := FaultRecord.of .latePass .A n

/-- Any other fault of group A. -/
def underrunA (n : FrameNo) : FaultRecord := { FaultRecord.of .underrun .A n with channel := some 4 }

/-- A transfer in progress in SPI mode. -/
def inTransfer (s : State) (x : Transfer) : State := { s with link := { s.link with transfer := some x } }

/-- `n` waiting requests. -/
def queued (s : State) (n : Nat) : State := { s with link := { s.link with requests := List.replicate n (req .pinRead []) } }

/-- A reply that is waiting. -/
def reply0 : Reply := ⟨0x84, 1, 0, []⟩

/-- The part in two-wire mode, at address 58h. -/
def twoWired : State := { State.reset with straps := ⟨true, false, false, false, false⟩ }

/-- A joined plan for quad B with one OUT lane of word length 32. -/
def joinedB : Plan :=
  { plan1 with lanes := #v[some ⟨.output, 1, 1, .w32⟩, none, none, none], halfLength := 16, joined := true }

/-! ### Well-formedness -/

theorem test_edge_after_no_bit_clock_is_ill_formed :
    (Instr.wordSelectEdge .A true 0).wellFormed = false ∧ (Instr.wordSelectEdge .A true 1).wellFormed = true := by decide +kernel

/-! ### Worked examples of the spec -/

theorem test_check_of_a_request : check [0x01, 0x05, 0x00] = 0x2A ∧
    judge [0x01, 0x05, 0x00, 0x2A] = some ⟨.request .partIdentify, 0x01, 0x05, []⟩ ∧
    judge [0x01, 0x05, 0x00, 0x2B] = some ⟨.badCheck, 0x01, 0x05, []⟩ := by decide +kernel

theorem test_frames_of_the_link :
    (live.noticeBytes .lock ⟨.live, false⟩).take 5 = [0xC1, 3, 0, 2, 0] ∧ (live.noticeBytes .fault ⟨.live, true⟩).take 4 = [0xC0, 2, 1, 0] ∧
    (live.noticeBytes .cueDone ⟨.cueDone .B 9, false⟩).take 5 = [0xC2, 3, 0, 1, 9] ∧
    (live.noticeBytes .clip ⟨.clip 0x8001, false⟩).take 5 = [0xC3, 3, 0, 0x80, 1] ∧
    (live.noticeBytes .mark ⟨.mark 3, false⟩).take 4 = [0xC4, 2, 0, 3] ∧ (live.noticeBytes .line ⟨.line 15, false⟩).take 4 = [0xC5, 2, 0, 15] ∧
    (live.noticeBytes .pin ⟨.pin 3 true, true⟩).take 5 = [0xC6, 3, 1, 3, 1] ∧
    Reply.bytes ⟨0x81, 5, 0x80, [7]⟩ = withCheck [0x81, 5, 0x80, 1, 7] := by decide +kernel

theorem test_plan_of_chapter_1 :
    let t := after .quadPlan (asked State.reset .quadPlan [0, 0b1101, 64, 0b11, 0x42, 0xFF, 0xA3, 0x90])
    t.quad .A = .planned plan1 ∧ reply t = some (0, [2, 0, 1, 1]) := by decide +kernel

theorem test_rounding_of_chapter_4 :
    roundSum .convergent 1066053140480 = 1016668 ∧ roundSum .truncate 1066053140480 = 1016667 ∧
    roundSum .convergent (-1031100956672) = -983334 ∧ roundSum .truncate (-1031100956672) = -983335 ∧
    limit .saturate 12500000 = 8388607 ∧ (limit .wrap 12500000).toInt = -4277216 := by decide +kernel

/-- The retire example of Chapter 3, on the group A part of the table. -/
def retireExample : State :=
  let s := liveXp
    [entry 0 2 1048576 .steady, entry 1 2 131072 (.ramping ⟨0, 524288, 200, 50, 40⟩), entry 2 2 734004 (.fading ⟨1048576, 0, 100, 30, 41⟩),
     entry 1 3 524288 .steady, entry 3 3 131072 (.ramping ⟨0, 1048576, 400, 50, 40⟩)]
    [applyingA 40 400 2, applyingA 41 100 1]
  let s : State := { s with link := { s.link with enable := 0b0000111 } }
  ((s.setRoute 4 (.owned 2)).setRoute 6 (.owned 3)).setRoute 7 (.clashed 2 3)

theorem test_retire_of_chapter_3 :
    let t := after .laneRetire (asked retireExample .laneRetire [0, 0])
    let u := after .laneRetire (asked t .laneRetire [0, 3])
    retireExample.TagsDistinct ∧ retireExample.RampCountsExact ∧ t.mix.xp = [] ∧ (t.bus 2).entryCount = 0 ∧ t.cues = [] ∧
    t.link.notice .cueDone = some ⟨.cueDone .A 40, true⟩ ∧ t.route 4 = .owned 2 ∧
    u.route 6 = .absent ∧ u.route 7 = .absent ∧ (u.bus 3).ownedCount = 0 ∧ (u.bus 2).ownedCount = 1 := by decide +kernel

/-- Bus 2 as in the worked example of Chapter 4, before pass 500. -/
def chapter4 : State :=
  let s := liveXp [entry 0 2 1048576 .steady, entry 1 2 262144 .steady, entry 2 2 (-786432) .steady]
    [cueA 29 (.atFrame 500) 2 [.gain 1 2 786432], cueA 30 (.atFrame 501) 0 [.gain 0 2 2097152]]
  let s := s.takeHolds [.gain 1 2 786432, .gain 0 2 2097152]
  flying (s.setRoute 4 (.owned 2)) { pass2 .cueStart [] .waiting with samples := [(0, 1000001), (1, 333333), (2, 200000)] }

theorem test_pass_500_of_chapter_4 :
    let t := after (.gainStep .A) (after (.cueStart .A) chapter4)
    let u := after (.exchangeVisit .A) (after (.accumulate .A) t)
    (t.mix.xp.map fun e => e.gain) = [1048576, 524288, -786432] ∧ (t.bus 2).holdCount = 1 ∧
    (t.cues.map fun c => (c.tag, c.state, c.outstanding)) = [(29, .applying, 1), (30, .waiting, 0)] ∧
    u.word.outSlot[(4 : Channel)] = ⟨1016668, true⟩ ∧ u.pass .A = none ∧ (u.bus 2).clip = false := by decide +kernel

/-- The state of Chapter 6's sequence before pass 2003, on bus 2. -/
def chapter6 : State :=
  let s := liveXp [entry 0 2 524288 (.ramping ⟨1048576, 0, 4, 2, 20⟩), entry 1 2 524288 .steady,
                   entry 2 2 524288 (.ramping ⟨0, 1048576, 4, 2, 20⟩)]
    [applyingA 20 4 2, cueA 21 (.atFrame 2003) 2 [.gain 0 2 786432, .drop 1 2], cueA 22 (.after 21) 0 [.gain 3 2 262144],
     cueA 23 (.after 22) 0 [.route 6 2], cueA 24 (.after 20) 0 [.route 5 2]]
  flying (s.takeHolds (s.cues.flatMap Cue.edits)) { pass2 .cueStart [] .waiting with frame := 2003 }

theorem test_take_over_and_cancel_of_chapter_6 :
    let t := after (.gainStep .A) (after (.cueStart .A) chapter6)
    let u := after .cueCancel (asked t .cueCancel [21])
    chapter6.TagsDistinct ∧ chapter6.RampCountsExact ∧ chapter6.HoldCountsExact ∧
    t.mix.xp = [entry 0 2 655360 (.ramping ⟨524288, 786432, 2, 1, 21⟩), entry 1 2 262144 (.fading ⟨524288, 0, 2, 1, 21⟩),
                entry 2 2 786432 (.ramping ⟨0, 1048576, 4, 3, 20⟩)] ∧
    (t.cues.map fun c => c.outstanding) = [1, 2, 0, 0, 0] ∧ (t.bus 2).holdCount = 3 ∧
    u.mix.xp = [entry 0 2 655360 .steady, entry 1 2 262144 .steady, entry 2 2 786432 (.ramping ⟨0, 1048576, 4, 3, 20⟩)] ∧
    (u.cues.map Cue.tag) = [20, 24] ∧ (u.bus 2).holdCount = 1 ∧ reply u = some (0, [3]) ∧ u.link.notice .cueDone = none := by
  decide +kernel

/-- The write queue of Chapter 7's example when pass 701 offers its read. -/
def chapter7 : State :=
  let s := (lined (line256 11 1)).setRoute 4 (.owned 2)
  flying { s with mem := { s.mem with
      access := some (.write 12300 0 true), openRow := some 12
      writeQ := [⟨12556, 0, .pass .B 9⟩, ⟨4106, 41000, .pass .A 2⟩] } }
    { pass2 .exchange [] .waiting with
      buses := [{ bus := 2, rounding := .convergent, overflow := .saturate, terms := [], result := 42000, progress := .waiting }] }

theorem test_forwarding_of_chapter_7 :
    let t := after (.exchangeVisit .A) chapter7
    t.word.outSlot[(4 : Channel)] = ⟨41000, true⟩ ∧ t.mem.readQ = [] ∧ t.line 2 = some (line256 12 1) ∧ t.pass .A = none ∧
    t.mem.writeQ = [⟨12556, 0, .pass .B 9⟩, ⟨4106, 41000, .pass .A 2⟩, ⟨4107, 42000, .pass .A 2⟩] := by decide +kernel

theorem test_flood_of_chapter_9 :
    let s := pushRecord (underrunA 1203) (pushRecord (lateA 1203) (pushRecord slipB []))
    let t := pushRecord (lateA 1204) s
    s = [underrunA 1203, lateA 1203, slipB] ∧
    t = [{ lateA 1204 with lostBelow := true }, underrunA 1203, lateA 1203] ∧
    pushRecord (lateA 1205) t = [{ lateA 1204 with lostBelow := true, repeated := true }, underrunA 1203, lateA 1203] := by decide +kernel

theorem test_at_triggers_of_chapter_5 :
    (cueA 1 (.atFrame 1500) 0 []).isDue .A 1001 = false ∧ (cueA 1 (.atFrame 500) 0 []).isDue .A 1001 = true := by decide +kernel

theorem test_a_missing_word_stops :
    let s : State := { State.reset with mem := { State.reset.mem with access := some (.read 0 none true) } }
    let t : State := { State.reset with mem := { State.reset.mem with access := some (.write 0 5 true) } }
    faultOf .dramReadComplete s = some (.noSuchWord 0) ∧ faultOf .dramWriteComplete t = some (.noSuchWord 0) := by decide +kernel

/-! ### States that meet the hypotheses of the statements: the link, the notices, the resets and the pins -/

theorem test_meets_StepRunsFrontCommand :
    State.reset.pending = [] ∧ step (State.reset.pushFront .hardwareReset) = exec .hardwareReset State.reset := ⟨rfl, rfl⟩

theorem test_meets_OnlyAMissingWordStops : exec .pinRead State.reset = .next State.reset := rfl

theorem test_meets_EachTakenFrameGetsOneReply :
    let s := asked live .pinRead []
    let t := after .pinRead s
    let u := after .pinRead (asked live .pinRead [1])
    Instr.pinRead ∈ executorCommands ∧ s.Takes (req .pinRead []) ∧ kindTaken .pinRead = some .pinRead ∧ t ≠ s ∧ t.link.requests = [] ∧
    after .pinSet s = s ∧ kindTaken .pinSet ≠ some .pinRead ∧ after .errorReply s = s ∧
    after .groupPowerActive (asked live .groupPower [0, 1]) = asked live .groupPower [0, 1] ∧
    reply (after .groupPowerStandby (asked live .groupPower [0, 1])) = some (0, []) ∧
    (after .partReset (queued (asked live .partReset []) 0)).link.requests = [] ∧
    (reply t).map (fun r => r.1) = some 0 ∧ reply u = some (6, []) := by decide +kernel

theorem test_meets_TransferEndJudgesAndReceives :
    let spi : Transfer := { form := .spi, outgoing := none }
    let s := inTransfer State.reset spi
    let good : List Byte := [0x01, 0x05, 0x00, 0x2A]
    (after (.transferEnd [0, 1, 2] 3) s).link.requests = [] ∧
    judge [1, 2] = none ∧ (after (.transferEnd [1, 2] 2) s).link.requests = [] ∧
    (after (.transferEnd good 4) (inTransfer (queued State.reset 3) spi)).link.requests.length = 4 ∧
    (after (.transferEnd good 4) (inTransfer (queued State.reset 4) spi)).link.overrun = true ∧
    (after (.transferEnd good 4) (inTransfer State.reset { spi with form := .twoWireRead })).link.requests = [] ∧
    (after (.transferEnd good 4) (inTransfer State.reset { spi with form := .twoWireWrite })).link.requests.length = 1 := by
  decide +kernel

theorem test_meets_TransferEndJudgesAndReceives_table :
    (judge [1, 2, 61]).map ReceivedFrame.outcome = some .tooLong ∧
    (judge ([1, 2, 60] ++ List.replicate 60 0)).map ReceivedFrame.outcome = some .short ∧
    (judge (withCheck ([1, 2, 60] ++ List.replicate 60 0))).map ReceivedFrame.outcome = some (.request .partIdentify) ∧
    (judge (withCheck [0x3F, 2, 0])).map ReceivedFrame.outcome = some .unknown ∧
    (∀ k ∈ allKinds, k.code ≠ 0x3F) := by decide +kernel

theorem test_meets_TransfersBegin :
    let s := { State.reset with resetHeld := true }
    let n : PendingNotice := { payload := .live, more := false }
    let pend (u : State) : State := u.occur .fault .live
    let held (u : State) (x : Source) : State := { u with link := { u.link with held := some x } }
    let replied (u : State) : State := { u with link := { u.link with replies := [reply0] } }
    let sent (u : State) : Option Source := (u.link.transfer.bind Transfer.outgoing).map Outgoing.source
    s.resetHeld = true ∧ State.reset.twoWire = false ∧ twoWired.twoWire = true ∧ twoWired.linkAddress = 0x58 ∧
    State.reset.resetHeld = false ∧ State.reset.link.transfer = none ∧ (pend State.reset).link.notice .fault = some n ∧
    sent (after (.transferBegin .ssFall) (replied (pend State.reset))) = some .reply ∧
    sent (after (.transferBegin .ssFall) (held (replied (pend State.reset)) (.notice .fault))) = some (.notice .fault) ∧
    sent (after (.transferBegin .ssFall) (pend State.reset)) = some (.notice .fault) ∧
    sent (after (.transferBegin .ssFall) State.reset) = none ∧
    sent (after (.transferBegin (.readAddress 0x58)) (replied twoWired)) = some .reply ∧
    (after (.transferBegin (.readAddress 0x59)) twoWired).link.addressAck = false ∧
    (after (.twoWireWriteAddress 0x58) (queued twoWired 3)).link.addressAck = true ∧
    (after (.twoWireWriteAddress 0x58) (queued twoWired 4)).link.addressAck = false := by decide +kernel

theorem test_meets_TransfersBegin_outputs :
    let o : Outgoing := { source := .reply, bytes := [0x84, 1], complete := false, changed := false, removed := false }
    let s := inTransfer State.reset { form := .spi, outgoing := some o }
    let r := inTransfer twoWired { form := .twoWireRead, outgoing := some o }
    let w : State := inTransfer twoWired { form := .twoWireWrite, outgoing := none }
    let held : State := { s with resetHeld := true }
    s.outgoingByte 1 = some 1 ∧ s.outgoingByte 2 = some 0 ∧ r.outgoingByte 2 = some 0xFF ∧ w.outgoingByte 0 = none ∧
    State.reset.outgoingByte 0 = none ∧ (List.range 9).map s.miso = [some true, some false, some false, some false, some false,
      some true, some false, some false, some false] ∧ s.miso 15 = some true ∧ State.reset.miso 0 = none ∧ r.miso 0 = none ∧
    held.miso 0 = none ∧ r.sdaLow (.bit 0) = false ∧ r.sdaLow (.bit 1) = true ∧ r.sdaLow (.bit 16) = false ∧
    w.sdaLow .dataAck = true ∧ r.sdaLow .dataAck = false ∧
    (after (.twoWireWriteAddress 0x58) twoWired).sdaLow .addressAck = true ∧
    (after (.twoWireWriteAddress 0x59) twoWired).sdaLow .addressAck = false := by decide +kernel

theorem test_meets_CompleteFramesLeave :
    let out (x : Source) (changed : Bool) : Transfer :=
      { form := .spi, outgoing := some { source := x, bytes := [], complete := false, changed := changed, removed := false } }
    let s := State.reset.occur .fault .live
    let r : State := { s with link := { s.link with replies := [reply0] } }
    (after .outgoingFrameComplete (inTransfer r (out .reply false))).link.replies = [] ∧
    (after .outgoingFrameComplete (inTransfer s (out (.notice .fault) false))).link.notice .fault = none ∧
    (after .outgoingFrameComplete (inTransfer s (out (.notice .fault) true))).link.notice .fault ≠ none := by decide +kernel

theorem test_meets_OccurrencesMakeNotices :
    let l := Link.reset
    let m := { l with enable := 0x7F }
    let n := m.occur .clip (.clip 1)
    l.enabled .clip = false ∧ m.enabled .clip = true ∧ m.notice .clip = none ∧
    (n.occur .clip (.clip 4)).notice .clip = some ⟨.clip 5, true⟩ ∧
    (let o : Outgoing := { source := .notice .clip, bytes := [], complete := false, changed := false, removed := false }
     let out (cls : NoticeClass) := ({ m with transfer := some { form := .spi, outgoing := some o } } : Link).occur cls (.clip 4) |>.transfer
     out .clip = some { form := .spi, outgoing := some { o with changed := true } } ∧ out .line = some { form := .spi, outgoing := some o }) ∧
    ((m.occur .mark (.mark 1)).occur .mark (.mark 2)).notice .mark = some ⟨.mark 3, true⟩ ∧
    ((m.occur .line (.line 1)).occur .line (.line 2)).notice .line = some ⟨.line 2, true⟩ := by decide +kernel

theorem test_meets_FaultPushFollowsTheTop :
    let s : State := { live with faults := [lateA 3, slipB] }
    let t : State := { live with faults := [slipB, lateA 2, underrunA 1] }
    (s.pushFault (lateA 4)).faults = [{ lateA 3 with repeated := true }, slipB] ∧
    (live.pushFault (lateA 4)).faults = [lateA 4] ∧ (s.pushFault (underrunA 4)).faults = [underrunA 4, lateA 3, slipB] ∧
    (t.pushFault (lateA 4)).faults = [{ lateA 4 with lostBelow := true }, slipB, lateA 2] := by decide +kernel

theorem test_meets_FaultReadTakesTheTop :
    let s (fs : List FaultRecord) (p : List Byte) := asked ({ live with faults := fs }.occur .fault .live) .faultRead p
    (s [lateA 3, slipB] []).Asks (req .faultRead []) .faultRead [] ∧
    reply (after .faultRead (s [lateA 3, slipB] [])) = some (0, [0x21, 0, 3, 0, 0, 0, 0, 0, 0, 0, 0, 3, 0, 0, 0, 1]) ∧
    (after .faultRead (s [lateA 3, slipB] [])).link.notice .fault ≠ none ∧
    (after .faultRead (s [slipB] [])).link.notice .fault = none ∧
    reply (after .faultRead (s [] [])) = some (1, []) ∧ reply (after .faultRead (s [slipB] [0])) = some (6, []) := by decide +kernel

/-- A transfer that is sending a FAULT notice, and one that is sending a reply. -/
def sending (s : State) (x : Source) (removed : Bool) : State :=
  inTransfer s { form := .spi, outgoing := some { source := x, bytes := [1], complete := false, changed := false, removed := removed } }

/-- A notice that leaves the set while it is sent is marked so by NOTICE_SET, FAULT_READ and PART_RESET; the transfer goes on. -/
theorem test_meets_removals_during_a_transfer :
    let s (x : Source) : State :=
      let u := sending ({ live with faults := [slipB] }.occur .fault .live) x false
      { u with link := { u.link with addressAck := true, held := some x } }
    let noticeSet (x : Source) := after .noticeSet (asked (s x) .noticeSet [2, 0])
    let faultRead (x : Source) := after .faultRead (asked (s x) .faultRead [])
    let partReset (x : Source) := after .partReset (asked (s x) .partReset [])
    let sees (t : Source → State) : Bool :=
      decide ((t (.notice .fault)).link.transfer = (sending live (.notice .fault) true).link.transfer) &&
      decide ((t .reply).link.transfer = (sending live .reply false).link.transfer) &&
      decide ((t .reply).link.held = some .reply) && decide ((t (.notice .fault)).link.held = none) &&
      (t .reply).link.addressAck && (t (.notice .fault)).link.addressAck
    sees noticeSet = true ∧ sees faultRead = true ∧ sees partReset = true := by decide +kernel

theorem test_meets_NoticeSetWritesMaskAndMode :
    let s : State := { live with cues := [cueA 1 (.pin 3) 0 [.delay 2 1]] }
    let t : State := { (live.occur .fault .live) with link := { (live.occur .fault .live).link with twoLine := true, held := some (.notice .fault) } }
    let u := after .noticeSet (asked t .noticeSet [0x7E, 0])
    (asked s .noticeSet [3, 1]).Asks (req .noticeSet [3, 1]) .noticeSet [3, 1] ∧ (0x7F : Byte).getLsbD 7 = false ∧
    reply (after .noticeSet (asked s .noticeSet [3, 1])) = some (0x0B, []) ∧
    reply (after .noticeSet (asked s .noticeSet [0x7F, 0])) = some (0, [0]) ∧
    reply u = some (0, [1]) ∧ u.link.notice .fault = none ∧ u.link.held = none ∧ u.link.enable = 0x7E ∧ u.link.twoLine = false ∧
    u.pins[(3 : PinId)].reference = some false := by decide +kernel

theorem test_meets_HardwareResetAndRelease :
    let s := after .hardwareReset live
    let t := after (.resetRelease ⟨true, true, false, true, false⟩) s
    live.mem.access = none ∧ s.resetHeld = true ∧ s.quad .A = .unplanned ∧ t.resetHeld = false ∧ t.linkAddress = 0x5A ∧
    (let w := after .hardwareReset { live with mem := { live.mem with access := some (.write 5 1 true) } }
     w.free = live.free + 1 ∧ s.free = live.free ∧ w.mem.access = none) ∧
    State.reset.resetHeld = false ∧ after (.resetRelease ⟨true, true, false, true, false⟩) State.reset = State.reset := by decide +kernel

theorem test_meets_SoftResetKeepsRepliesAndFaults :
    let s (x : Option Access) : State := asked { live with
      faults := [slipB], mem := { live.mem with access := x, refreshDue := true }
      link := { live.link with replies := [reply0], held := some .reply, overrun := true } } .partReset []
    let t (x : Option Access) := after .partReset (s x)
    (s none).Asks (req .partReset []) .partReset [] ∧ (t none).quad .A = .unplanned ∧ (t none).faults = [slipB] ∧
    (t none).link.replies.length = 2 ∧ reply (t none) = some (0x80, []) ∧ (t none).link.held = some .reply ∧
    (t (some (.read 5 (some (.A, 2)) true))).mem.access = some (.read 5 none true) ∧
    (t (some (.write 5 1 true))).mem.access = some (.write 5 1 true) ∧ (t (some .refresh)).mem.access = some .refresh := by
  decide +kernel

theorem test_meets_PartIdentifyReports :
    let s (x : Straps) := asked { live with straps := x } .partIdentify []
    let size (x : Straps) := (reply (after .partIdentify (s x))).map fun r => (r.2.drop 2).take 4
    (s ⟨false, false, false, false, false⟩).Asks (req .partIdentify []) .partIdentify [] ∧
    size ⟨true, false, true, false, false⟩ = some [0x03, 0, 0, 0] ∧ size ⟨false, true, false, false, true⟩ = some [0x0C, 0x10, 0, 0] ∧
    size ⟨false, false, false, true, false⟩ = some [0x10, 0x20, 0, 0] ∧ size ⟨false, false, false, true, true⟩ = some [0x18, 0x40, 0, 0] ∧
    (reply (after .partIdentify (s ⟨false, false, false, false, false⟩))).map (fun r => r.2.drop 6) = some [2, 0, 0] ∧
    reply (after .partIdentify (asked live .partIdentify [0])) = some (6, []) := by decide +kernel

theorem test_meets_PinSetStoresTheSettings :
    let s : State := (live.setPin 0 { live.pins[(0 : PinId)] with role := .triggerRise })
    let w : State := { s with cues := [cueA 1 (.pin 0) 0 [.delay 2 1]] }
    let two (u : State) : State := { u with link := { u.link with twoLine := true } }
    let set (u : State) (p : List Byte) := after .pinSet (asked u .pinSet p)
    (asked w .pinSet [0, 0, 0, 1]).Asks (req .pinSet [0, 0, 0, 1]) .pinSet [0, PinRole.input.code, 0, 1] ∧
    reply (set w [0, 0, 0, 1]) = some (0x0B, []) ∧ reply (set w [0, 2, 1, 0]) = some (0, []) ∧
    (set s [0, 0, 0, 1]).pins[(0 : PinId)] = ⟨.input, false, true, some false, false⟩ ∧
    (set s [3, 4, 0, 0]).pins[(3 : PinId)] = ⟨.outputHigh, false, false, some true, false⟩ ∧
    (set (two s) [3, 4, 0, 0]).pins[(3 : PinId)] = ⟨.outputHigh, false, false, none, false⟩ ∧
    reply (set s [0, 8, 0, 1]) = some (6, []) := by decide +kernel

theorem test_meets_LinesFollowTheState :
    let with_ (role : PinRole) (drain board : Bool) : State := live.setPin 1 ⟨role, drain, false, none, board⟩
    State.reset.attn0 = false ∧ (live.occur .fault .live).attn0 = true ∧ State.reset.ready = true ∧ (queued live 4).ready = false ∧
    live.resetHeld = false ∧ live.link.twoLine = false ∧
    (with_ .input false true).pinLevel 1 = true ∧ (with_ .outputLow false true).pinLevel 1 = false ∧
    (with_ .outputHigh true false).pinLevel 1 = false ∧ (with_ .outputHigh false false).pinLevel 1 = true ∧
    (with_ .lockedA false false).pinLevel 1 = true ∧ (with_ .lockedB true true).pinLevel 1 = false ∧
    (with_ .markA true true).pinLevel 1 = false := by decide +kernel

/-- GP3 as ATTN1 on an open-drain line, and the drives of a general pin. -/
theorem test_meets_LinesFollowTheState_drives :
    let two (drain board : Bool) : State :=
      (({ live with link := { live.link with twoLine := true } }).setPin 3 ⟨.input, drain, false, none, board⟩).occur .fault .live
    let quiet : State := { live with link := { live.link with twoLine := true } }
    let held : State := { live.setPin 0 ⟨.outputHigh, false, false, none, false⟩ with resetHeld := true }
    (two true false).pinDrive 3 = .highImpedance ∧ (two true false).pinLevel 3 = false ∧ (two true false).reportedLevel 3 = true ∧
    (two false false).pinDrive 3 = .high ∧ (two false false).pinLevel 3 = true ∧ quiet.pinDrive 3 = .low ∧
    held.pinDrive 0 = .highImpedance ∧ (live.pinDrive 0) = .highImpedance := by decide +kernel

/-- The OUT lane at position 2 of Chapter 1 carries A4 and A5 as 32-bit words at bit positions 1 to 32; a joined OUT lane of quad B waits, then fills half-frames of 32 bit clocks. -/
theorem test_meets_LinesFollowTheState_lanes :
    let s : State := { live with word := { live.word with settled := (live.word.settled.set 4 0x800001).set 5 0x400000 } }
    let bits (s : State) (q : QuadId) (p : LanePos) (side : Side) (ps : List Nat) := ps.map fun i => s.laneLevel q p side i
    let b (drives due : Bool) : State :=
      let u := (State.reset.setQuad .A (.started { plan1 with lanes := #v[none, none, none, none], halfLength := 32 })).setQuad .B
        (.started { joinedB with lanes := #v[some ⟨.output, 1, 1, .w32⟩, none, none, none] })
      let v := u.setGroup .A { lockedGroup with startDue := due }
      { v with
        lane := { v.lane with joinedDriven := drives }
        word := { v.word with settled := (v.word.settled.set 8 0x800000).set 9 0x123456, previous := v.word.previous.set 9 0xFFFFFF } }
    let lost := s.setGroup .A { lockedGroup with state := .lost }
    s.laneDrive .A 0 = .captured ∧ s.laneDrive .A 1 = .highImpedance ∧ s.laneDrive .A 2 = .words ∧ s.laneDrive .B 0 = .highImpedance ∧
    lost.laneDrive .A 2 = .drivenLow ∧ bits lost .A 2 .left [1] = [some false] ∧ bits s .A 0 .left [1] = [none] ∧
    bits s .A 2 .left [0, 1, 2, 24, 25, 32, 33, 63] =
      [some false, some true, some false, some true, some false, some false, some false, some false] ∧
    bits s .A 2 .right [1, 2, 3] = [some false, some true, some false] ∧
    (b false false).laneDrive .B 0 = .highImpedance ∧ (b true false).laneDrive .B 0 = .words ∧
    bits (b true false) .B 0 .left [0, 1, 2, 31] = [some false, some true, some false, some false] ∧
    s.outputWord 4 = some 0x80000100 ∧ s.outputWord 0 = none := by decide +kernel

/-- The last bit of a word that fills the half-frame falls at bit position 0 of the next (R3): with 24-bit words the low bit of the sample. -/
theorem test_meets_LinesFollowTheState_last_bit :
    let plan (d : Bool) : Plan :=
      { plan1 with lanes := #v[some ⟨.output, 1, 1, .w24⟩, none, none, none], halfLength := 24, firstBitDelay := d }
    let s (d due : Bool) : State :=
      let u := (State.reset.setQuad .A (.started (plan d))).setGroup .A { lockedGroup with startDue := due }
      { u with word := { u.word with settled := (u.word.settled.set 0 0x800001).set 1 0x000002, previous := u.word.previous.set 1 0x000003 } }
    (s true false).laneLevel .A 0 .left 0 = some true ∧ (s true true).laneLevel .A 0 .left 0 = some false ∧
    (s true false).laneLevel .A 0 .right 0 = some true ∧ (s true false).laneLevel .A 0 .left 24 = some true ∧
    (s false false).laneLevel .A 0 .left 0 = some true ∧ (s false false).laneLevel .A 0 .right 24 = some true ∧
    (s false false).laneLevel .A 0 .left 23 = some true ∧ (s false false).laneLevel .A 0 .right 22 = some true := by decide +kernel

theorem test_meets_PinEdgeArmsAndReports :
    let s (role : PinRole) (report : Bool) (ref : Option Bool) : State :=
      { live.setPin 0 ⟨role, false, report, ref, false⟩ with
        cues := [cueA 1 (.pin 0) 0 [.delay 2 1]], link := { live.link with enable := 0x7F } }
    let held : State := { State.reset with resetHeld := true }
    let two : State := { live with link := { live.link with twoLine := true } }
    held.resetHeld = true ∧ (after (.pinEdge 0 ⟨true, true⟩) held).pins[(0 : PinId)].board = true ∧
    (after (.pinEdge 3 ⟨true, true⟩) two).pins[(3 : PinId)].reference = some false ∧
    (after (.pinEdge 0 ⟨true, true⟩) (s .outputHigh false none)).pins[(0 : PinId)].reference = some true ∧
    (after (.pinEdge 0 ⟨true, true⟩) (s .triggerRise false (some false))).cues.map Cue.armed = [true] ∧
    (after (.pinEdge 0 ⟨false, true⟩) (s .triggerFall false (some true))).cues.map Cue.armed = [true] ∧
    (after (.pinEdge 0 ⟨true, true⟩) (s .triggerRise false none)).cues.map Cue.armed = [false] ∧
    (after (.pinEdge 0 ⟨true, true⟩) (s .triggerFall false (some false))).cues.map Cue.armed = [false] ∧
    (after (.pinEdge 0 ⟨true, false⟩) (s .triggerRise false (some false))) = (s .triggerRise false (some false)).setPin 0 ⟨.triggerRise, false, false, some false, true⟩ ∧
    (after (.pinEdge 0 ⟨true, true⟩) (s .input true (some false))).link.notice .pin = some ⟨.pin 0 true, false⟩ := by decide +kernel

/-- A role change that is taken together with an edge: first, it leaves the edge unseen; second, it comes after an edge judged under the old role. -/
theorem test_meets_PinEdgeArmsAndReports_role_change :
    let s : State := { live.setPin 0 ⟨.input, false, true, some false, false⟩ with link := { live.link with enable := 0x7F } }
    let set (u : State) := after .pinSet (asked u .pinSet [0, 1, 0, 0])
    let first := after (.pinEdge 0 ⟨true, true⟩) (set (after (.pinEdge 0 ⟨true, false⟩) s))
    let second := set (after (.pinEdge 0 ⟨true, true⟩) s)
    first.link.notice .pin = none ∧ first.pins[(0 : PinId)] = ⟨.triggerRise, false, false, some true, true⟩ ∧
    second.link.notice .pin = some ⟨.pin 0 true, false⟩ ∧ second.pins[(0 : PinId)] = first.pins[(0 : PinId)] := by decide +kernel

theorem test_meets_UnfitFramesAreAnswered :
    let bad (o : FrameOutcome) : State := { live with link := { live.link with requests := [⟨o, 0x3F, 9, []⟩] } }
    let busy (c : Instr) (kind : RequestKind) (p : List Byte) := reply (after c (asked live kind p))
    (asked live .cuePost [1]).Asks (req .cuePost [1]) .cuePost [1] ∧ [1].length ≠ 10 + 6 * (byteAt [1] 9).toNat ∧
    busy .cuePost .cuePost [1] = some (6, []) ∧ busy .lineRead .lineRead [] = some (6, []) ∧
    busy .groupPowerStandby .groupPower [0] = some (6, []) ∧ busy .groupPowerActive .groupPower [0, 1, 0] = some (6, []) ∧
    busy .lineClear .lineClear [16] = some (6, []) ∧ busy .pinSet .pinSet [0, 9, 0, 0] = some (6, []) ∧
    busy .noticeSet .noticeSet [128, 0] = some (6, []) ∧ busy .cueRead .cueRead [24] = some (6, []) ∧
    (bad .unknown).Takes ⟨.unknown, 0x3F, 9, []⟩ ∧ reply (after .errorReply (bad .unknown)) = some (2, [0x3F]) ∧
    reply (after .errorReply (bad .tooLong)) = some (4, []) ∧ reply (after .errorReply (bad .short)) = some (3, []) ∧
    reply (after .errorReply (bad .badCheck)) = some (5, []) := by decide +kernel

/-! ### States that meet the hypotheses of the statements: quads, groups and words -/

theorem test_meets_QuadPlanStoresThePlan :
    let plan (s : State) (p : List Byte) := reply (after .quadPlan (asked s .quadPlan p))
    let p1 : List Byte := [0, 0b1101, 64, 0b11, 0x42, 0xFF, 0xA3, 0x90]
    (asked live .quadPlan p1).Asks (req .quadPlan p1) .quadPlan p1 ∧ planOf p1 = some (.A, plan1) ∧
    plan State.reset [0, 1, 65, 0, 0x10, 0, 0, 0] = some (6, []) ∧ plan State.reset [0, 0x11, 64, 0, 0x10, 0, 0, 0] = some (6, []) ∧
    plan State.reset [2, 1, 64, 0, 0x10, 0, 0, 0] = some (6, []) ∧ plan State.reset [0, 1, 64, 4, 0x10, 0, 0, 0] = some (6, []) ∧
    plan State.reset [0, 1, 64, 0, 0x30, 0, 0, 0] = some (6, []) ∧ plan State.reset [0, 1, 64, 0, 0x14, 0, 0, 0] = some (6, []) ∧
    plan live p1 = some (8, []) ∧ plan State.reset [0, 0, 64, 0, 0, 0, 0, 0] = some (9, []) ∧
    plan State.reset [0, 1, 16, 0, 0x13, 0, 0, 0] = some (0x0A, []) ∧ plan State.reset [0, 1, 32, 0, 0x13, 0, 0, 0] = some (0, [1, 0, 0, 0]) ∧
    plan State.reset [1, 0x11, 16, 0, 0x13, 0, 0, 0] = some (0, [1, 0, 0, 0]) ∧
    plan State.reset [0, 1, 128, 0, 0x40, 0, 0, 0] = some (0, [4, 0, 0, 0]) ∧
    plan State.reset [1, 4, 128, 3, 0, 0, 0xC1, 0] = some (0, [0, 0, 2, 0]) := by decide +kernel

theorem test_meets_QuadStartStartsTheQuad :
    let start (s : State) (q : Byte) := asked s .quadStart [q]
    let a : State := State.reset.setQuad .A (.planned plan1)
    let b (s : State) (h : Nat) : State := s.setQuad .B (.planned { joinedB with lanes := joinedB.lanes, halfLength := h })
    let small : State := State.reset.setQuad .A (.started { plan1 with lanes := #v[none, none, none, none], halfLength := 24 })
    let done := after .quadStart (start a 0)
    (start a 0).Asks (req .quadStart [0]) .quadStart [byteOfLetter .A] ∧ a.quad .A = .planned plan1 ∧
    reply (after .quadStart (start State.reset 0)) = some (7, []) ∧ reply (after .quadStart (start live 0)) = some (8, []) ∧
    reply done = some (0, []) ∧ (done.group .A).state = .acquiring ∧ (done.group .A).lossTimer = true ∧
    done.link.notice .lock ≠ none ∧ done.route 4 = .free ∧ done.route 3 = .absent ∧
    reply (after .quadStart (start (b State.reset 16) 1)) = some (7, []) ∧
    reply (after .quadStart (start (b small 16) 1)) = some (0x0A, []) ∧
    reply (after .quadStart (start (b live 16) 1)) = some (0, []) ∧
    (after .quadStart (start (b live 16) 1)).route 8 = .free ∧ ((after .quadStart (start (b live 16) 1)).group .B).state = .off ∧
    (after .quadStart (start (b live 16) 1)).lane.joinedDriven = false := by decide +kernel

theorem test_meets_LaneRetireRemovesTheLane :
    let r (s : State) (p : List Byte) := reply (after .laneRetire (asked s .laneRetire p))
    (asked live .laneRetire [0, 3]).Asks (req .laneRetire [0, 3]) .laneRetire [byteOfLetter .A, BitVec.ofNat 8 (3 : LanePos).val] ∧
    live.quad .A = .started plan1 ∧ plan1.lanes[(1 : LanePos)] = none ∧ r live [1, 0] = some (7, []) ∧
    r live [0, 1] = some (0x11, []) ∧ r live [0, 0] = some (0, []) ∧ r live [0, 3] = some (0, []) ∧
    (after .laneRetire (asked live .laneRetire [0, 3])).route 7 = .absent ∧
    (after .laneRetire (asked live .laneRetire [0, 3])).route 5 = .free := by decide +kernel

theorem test_meets_GroupPowerAndMark :
    let down (s : State) := after .groupPowerStandby (asked s .groupPower [0, 1])
    let up (s : State) := after .groupPowerActive (asked s .groupPower [0, 0])
    let marked : State := live.setGroup .A { lockedGroup with markOut := true }
    let m := after .groupMark (asked marked .groupMark [0, 0, 0, 7, 0xD1, 1])
    (asked live .groupPower [0, 1]).Asks (req .groupPower [0, 1]) .groupPower [byteOfLetter .A, 1] ∧
    reply (down State.reset) = some (7, []) ∧ reply (up State.reset) = some (7, []) ∧
    ((down marked).group .A).state = .standby ∧ ((down marked).group .A).markOut = false ∧ ((down marked).group .A).counter = 2000 ∧
    ((down (flying marked (pass2 .gainStep [] .waiting))).pass .A).map Pass.leftLocked = some true ∧
    reply (down (down live)) = some (0, []) ∧ ((down (down live)).group .A).state = .standby ∧
    ((up (down live)).group .A).state = .acquiring ∧ ((up live).group .A).state = .locked ∧
    (m.group .A).mark = 2001 ∧ (m.group .A).markMode = .latch ∧ (m.group .A).markOut = false := by decide +kernel

theorem test_meets_AcquisitionCountsGoodFrames :
    let acq (count : Nat) (half : Option HalfFrame) (goodLeft : Bool) : State :=
      liveWith { ClockGroup.reset with state := .acquiring, count := count, half := half, goodLeft := goodLeft, lossTimer := true }
    let edge (s : State) (high : Bool) (length : Nat) := ((after (.wordSelectEdge .A high length) s).group .A)
    (live.quad .A).startedPlan = some plan1 ∧ plan1.polarity.side false = .left ∧
    (edge (acq 0 none false) false 1).half = some ⟨.left, 0⟩ ∧
    (edge (acq 1 (some ⟨.left, 0⟩) false) true 64).goodLeft = true ∧ (edge (acq 1 (some ⟨.left, 0⟩) false) true 63).count = 0 ∧
    (edge (acq 0 (some ⟨.right, 0⟩) true) false 64).count = 1 ∧ (edge (acq 1 (some ⟨.right, 0⟩) false) false 64).count = 1 ∧
    (edge (acq 1 (some ⟨.right, 64⟩) true) false 64).state = .locked ∧
    (after (.wordSelectEdge .A false 64) (acq 1 (some ⟨.right, 0⟩) true)).word.firstFrame.a = true := by decide +kernel

/-- Channels A4 and A5 are OWNED: A4 has a fresh value, A5 repeats 77; A6 is FREE. -/
def sounding : State :=
  let s := (live.setRoute 4 (.owned 2)).setRoute 5 (.owned 2)
  { s with word := { s.word with
      outSlot := s.word.outSlot.set 4 ⟨9, true⟩, lastWord := (s.word.lastWord.set 5 77).set 6 5, settled := s.word.settled.set 4 8 } }

/-- The same with a first-bit delay of 0. -/
def sounding0 : State := sounding.setQuad .A (.started { plan1 with firstBitDelay := false })

theorem test_meets_FrameArrivalBeginsAPass :
    let t := after (.wordSelectEdge .A false 64) (liveWith { lockedGroup with mark := 2001 })
    let u := after (.wordSelectEdge .A false 64) (flying live { pass2 .exchange [] .readOutstanding with outstanding := [(4105, 2)] })
    plan1.polarity.side false = .left ∧ (t.group .A).counter = 2001 ∧ (t.group .A).markOut = true ∧ (t.group .A).startDue = true ∧
    (t.pass .A).map (fun p => (p.frame, p.samples.map Prod.fst, p.buses.map PassBus.bus)) = some (2001, [0, 1, 2, 3], [2, 3]) ∧
    u.faults = [{ lateA 2001 with address := some 4105 }] := by decide +kernel

/-- With a first-bit delay of 1 the frame start and the arrival fall together, in either order. -/
theorem test_meets_FrameArrivalBeginsAPass_start :
    let late := flying sounding (pass2 .exchange [] .readOutstanding)
    let edge (s : State) := after (.wordSelectEdge .A false 64) s
    let first := edge (after (.frameStart .A) late)
    let second := after (.frameStart .A) (edge late)
    let underrun : FaultRecord := { FaultRecord.of .underrun .A 2001 with channel := some 5 }
    (after (.frameStart .A) late).word = late.word ∧ first.word = { second.word with capture := first.word.capture } ∧
    first.word.settled[(4 : Channel)] = 9 ∧ first.word.previous[(4 : Channel)] = 8 ∧
    (first.group .A).startDue = false ∧ (first.group .A).startMade = false ∧
    first.faults = [lateA 2001, underrun] ∧ second.faults = [underrun, lateA 2001] := by decide +kernel

theorem test_meets_SlipsAndLostEdges :
    let edge (s : State) (high : Bool) (length : Nat) := after (.wordSelectEdge .A high length) s
    let lost := liveWith { ClockGroup.reset with state := .lost }
    let left := liveWith { lockedGroup with half := some ⟨.left, 0⟩, goodLeft := false }
    (State.reset.quad .A).startedPlan = none ∧ edge State.reset true 1 = State.reset ∧
    edge (liveWith ClockGroup.reset) true 64 = liveWith ClockGroup.reset ∧
    ((edge lost true 1).group .A).state = .acquiring ∧ ((edge lost true 1).group .A).half = some ⟨.right, 0⟩ ∧
    ((edge live false 63).group .A).state = .lost ∧ (edge live false 65).faults = [FaultRecord.of .slip .A 2000] ∧
    ((edge left true 64).group .A).goodLeft = true ∧ ((edge left true 64).group .A).half = some ⟨.right, 0⟩ := by decide +kernel

/-- A frame start that waits for the edge is not made when the edge ends a bad half-frame, nor when STANDBY comes first. -/
theorem test_meets_SlipsAndLostEdges_start :
    let s := after (.frameStart .A) sounding
    let t := after (.wordSelectEdge .A false 63) s
    let u := after .groupPowerStandby (asked s .groupPower [0, 1])
    (s.group .A).startMade = true ∧ (t.group .A).state = .lost ∧ t.faults = [FaultRecord.of .slip .A 2000] ∧
    t.word.outSlot = sounding.word.outSlot ∧ t.word.lastWord = sounding.word.lastWord ∧
    (u.group .A).startMade = false ∧ u.faults = [] ∧ u.word.outSlot = sounding.word.outSlot := by decide +kernel

/-- `live` with a started joined quad B, every capture register full, and every output of group A settled. -/
def joinedLive (G : ClockGroup) : State :=
  let s := (liveWith G).setQuad .B (.started joinedB)
  { s with word := { s.word with
      capture := Vector.replicate 16 ⟨24, 5⟩, settled := Vector.replicate 16 7, previous := Vector.replicate 16 6, firstFrame := ⟨true, true⟩ } }

/-- Every edge that begins a half-frame, in ACQUIRING, in LOCKED after each side, and in LOST, with a joined quad B. -/
theorem test_meets_edges_begin_a_half_frame :
    let acq (half : Option HalfFrame) := joinedLive { ClockGroup.reset with state := .acquiring, half := half, lossTimer := true }
    let edge (s : State) (high : Bool) := after (.wordSelectEdge .A high 64) s
    let lost := joinedLive { ClockGroup.reset with state := .lost }
    let left := joinedLive { lockedGroup with half := some ⟨.left, 0⟩, goodLeft := false }
    let locked := joinedLive lockedGroup
    (acq none).isInputOf .A 0 = true ∧ channelSide 0 = .left ∧ (acq none).bJoined = true ∧
    (acq none).BeginsHalf .A .right (edge (acq none) true) ∧ (acq none).BeginsHalf .A .left (edge (acq none) false) ∧
    (acq (some ⟨.right, 0⟩)).BeginsHalf .A .left (edge (acq (some ⟨.right, 0⟩)) false) ∧
    lost.BeginsHalf .A .left (edge lost false) ∧ left.BeginsHalf .A .right (edge left true) ∧
    locked.BeginsHalf .A .left (edge locked false) ∧
    (edge locked false).word.capture[(0 : Channel)] = ⟨0, 0⟩ ∧ (edge locked false).word.capture[(1 : Channel)] = ⟨24, 5⟩ ∧
    (edge locked false).lane.joinedCapture = true ∧ (edge left true).lane.joinedCapture = false := by decide +kernel

/-- Every halt of a group with a joined quad B: a slip, a clock loss, and STANDBY from LOCKED and from ACQUIRING. -/
theorem test_meets_halts_of_the_lanes :
    let s := joinedLive lockedGroup
    let acq := joinedLive { ClockGroup.reset with state := .acquiring, lossTimer := true }
    let down (s : State) := after .groupPowerStandby (asked s .groupPower [0, 1])
    let slip := after (.wordSelectEdge .A false 63) s
    s.HaltsLanes .A slip ∧ s.HaltsLanes .A (after (.lossTimerExpiry .A) s) ∧ s.HaltsLanes .A (down s) ∧ acq.HaltsLanes .A (down acq) ∧
    slip.word.settled[(4 : Channel)] = 0 ∧ slip.word.settled[(0 : Channel)] = 7 ∧ slip.word.capture[(0 : Channel)] = ⟨0, 0⟩ ∧
    slip.lane.joinedDriven = true ∧ (down acq).word.settled[(4 : Channel)] = 7 ∧ (down acq).lane.joinedDriven = false ∧
    slip.word.firstFrame.a = true := by decide +kernel

theorem test_meets_LossTimerExpires :
    let acq := liveWith { ClockGroup.reset with state := .acquiring, count := 1, half := some ⟨.left, 3⟩, lossTimer := true }
    (State.reset.group .A).lossTimer = false ∧ (live.group .A).lossTimer = true ∧ (live.group .A).state = .locked ∧
    ((after (.lossTimerExpiry .A) acq).group .A).half = none ∧ ((after (.lossTimerExpiry .A) acq).group .A).count = 0 ∧
    (after (.lossTimerExpiry .A) live).faults = [FaultRecord.of .clockLoss .A 2000] ∧
    ((after (.lossTimerExpiry .A) live).group .A).state = .lost := by decide +kernel

theorem test_meets_FrameStartSettlesTheOutputs :
    let due (u : State) : State := u.setGroup .A { lockedGroup with startDue := true, half := some ⟨.left, 0⟩ }
    let first : State := { sounding0 with word := { sounding0.word with firstFrame := ⟨true, false⟩ } }
    let t := after (.frameStart .A) sounding0
    let u := after (.frameStart .A) sounding
    (State.reset.group .A).state ≠ .locked ∧ (sounding.group .A).goodLeft = true ∧ (sounding.group .A).startMade = false ∧
    sounding.isOutputOf .A 4 = true ∧ sounding.isOutputOf .A 0 = false ∧ sounding.word.firstFrame.get .A = false ∧
    t.word.settled[(4 : Channel)] = 9 ∧ t.word.previous[(4 : Channel)] = 8 ∧ t.word.settled[(5 : Channel)] = 77 ∧
    t.word.lastWord[(6 : Channel)] = 0 ∧ t.faults = [{ FaultRecord.of .underrun .A 2001 with channel := some 5 }] ∧
    (t.group .A).startMade = true ∧ (t.group .A).half = some ⟨.right, 64⟩ ∧ after (.frameStart .A) t = t ∧
    u = sounding.setGroup .A { lockedGroup with startMade := true } ∧ after (.frameStart .A) u = u ∧
    (after (.frameStart .A) (due sounding)).faults = [{ FaultRecord.of .underrun .A 2000 with channel := some 5 }] ∧
    (after (.frameStart .A) (live.setQuad .A (sounding0.quad .A))).faults = [] ∧
    (after (.frameStart .A) first).word.settled[(4 : Channel)] = 0 ∧ (after (.frameStart .A) first).faults = [] := by decide +kernel

theorem test_meets_WordsAreCapturedAndConverted :
    let s := liveWith { lockedGroup with half := some ⟨.left, 0⟩ }
    let t := after (.wordComplete 2 0xFF800001) s
    (s.group (s.groupOfChannel 2)).state = .locked ∧ s.channelLane 2 = some (0, ⟨.input, 4, 2, .w24⟩) ∧
    channelSide 2 = .left ∧ s.word.capture[(2 : Channel)].count = 0 ∧
    t.word.inSlot[(2 : Channel)] = 0x800001 ∧ t.word.capture[(2 : Channel)] = ⟨24, 0x800001⟩ ∧
    (t.group .A).half = some ⟨.left, 49⟩ ∧ after (.wordComplete 2 0) t = t ∧ s.isInput 4 = false ∧ after (.wordComplete 4 0) s = s ∧
    (after (.wordComplete 0 0) t).word.capture[(0 : Channel)].count = 24 ∧ ((after (.wordComplete 0 0) t).group .A).half = some ⟨.left, 49⟩ ∧
    ((State.reset.group (State.reset.groupOfChannel 2)).state = .off) ∧ after (.wordComplete 2 5) State.reset = State.reset ∧
    sampleOfWord .w16 0x8001 = 0x800100 ∧ sampleOfWord .w20 0xF8001 = 0xF80010 ∧ sampleOfWord .w32 0x123456FF = 0x123456 ∧
    wordOfSample .w16 0xFFFFFF = 0xFFFF ∧ wordOfSample .w32 0x123456 = 0x12345600 := by decide +kernel

/-! ### States that meet the hypotheses of the statements: buses, routes, reads and the cue list -/

theorem test_meets_BusSettingsAndClipFlags :
    let set (s : State) (p : List Byte) := after .busSet (asked s .busSet p)
    let held := live.modifyBus 3 fun r => { r with holdCount := 1 }
    let clipped := (live.modifyBus 0 fun r => { r with clip := true }).modifyBus 15 fun r => { r with clip := true }
    let t := after .clipClear (asked clipped .clipClear [0x80, 0x02])
    (asked live .busSet [3, 1, 1, 1]).Asks (req .busSet [3, 1, 1, 1]) .busSet
      [BitVec.ofNat 8 (3 : BusId).val, byteOfBusGroup (some .B), Rounding.truncate.code, Overflow.wrap.code] ∧
    reply (set held [3, 1, 0, 0]) = some (0x0B, []) ∧ reply (set held [3, 0, 1, 1]) = some (0, []) ∧
    (set live [3, 2, 1, 1]).bus 3 = ⟨none, .truncate, .wrap, false, 0, 0, 0⟩ ∧
    (set live [15, 1, 0, 0]).bus 15 = { BusRecord.reset with group := some .B } ∧
    reply t = some (0, [0x80, 0x00]) ∧ (t.bus 15).clip = false ∧ (t.bus 0).clip = true := by decide +kernel

theorem test_meets_BusReadReturnsTheRecord :
    (asked live .busRead [15]).Asks (req .busRead [15]) .busRead [15] ∧ (15 : Byte) = BitVec.ofNat 8 (15 : BusId).val ∧
    reply (after .busRead (asked (lined (line256 0 1)) .busRead [2])) = some (0, [0, 0, 0, 0, 0, 0, 0, 1]) ∧
    reply (after .busRead (asked live .busRead [15])) = some (0, [2, 0, 0, 0, 0, 0, 0, 0]) ∧
    reply (after .busRead (asked live .busRead [16])) = some (6, []) := by decide +kernel

theorem test_meets_RouteReadReturnsTheTable :
    let t := after .routeRead (asked retireExample .routeRead [])
    (asked live .routeRead []).Asks (req .routeRead []) .routeRead [] ∧
    (reply t).map (fun r => (r.2.drop 12).take 12) = some [2, 2, 0, 1, 0, 0, 2, 3, 0, 3, 2, 3] ∧
    reply (after .routeRead (asked live .routeRead [0])) = some (6, []) := by decide +kernel

theorem test_meets_RouteClearFreesTheChannel :
    let clear (c : Byte) := after .routeClear (asked retireExample .routeClear [c])
    (asked live .routeClear [4]).Asks (req .routeClear [4]) .routeClear [4] ∧ (15 : Byte) = BitVec.ofNat 8 (15 : Channel).val ∧
    reply (clear 16) = some (6, []) ∧ reply (clear 15) = some (0x11, []) ∧ reply (clear 4) = some (0, [2, 2, 0]) ∧
    reply (clear 7) = some (0, [3, 2, 3]) ∧ reply (clear 5) = some (0, [1, 0, 0]) ∧ (clear 4).route 4 = .free ∧
    ((clear 4).bus 2).ownedCount = 0 ∧ ((clear 7).bus 2).ownedCount = 1 := by decide +kernel

theorem test_meets_ReadsReportAndChangeNothing :
    let read (s : State) (c : Instr) (kind : RequestKind) (p : List Byte) := reply (after c (asked s kind p))
    (asked live .groupRead [0]).Asks (req .groupRead [0]) .groupRead [byteOfLetter .A] ∧ retireExample.TableInOrder ∧
    read live .groupRead .groupRead [0] = some (0, [2, 0, 0, 0x07, 0xD0, 0xFF, 0xFF, 0xFF, 0xFF, 0]) ∧
    (read retireExample .xpRead .xpRead [2, 0]).map (fun r => r.2.take 4) = some [2, 3, 3, 0] ∧
    (read retireExample .xpRead .xpRead [2, 15]).map (fun r => r.2.take 4) = some [2, 3, 0, 0] ∧
    (read retireExample .xpRead .xpRead [3, 3]).map (fun r => r.2.drop 4) =
      some [3, 1, 0x02, 0, 0, 0, 0, 0, 0x10, 0, 0, 0x01, 0x90, 0, 50, 40] ∧
    read chapter4 .cueRead .cueRead [1] = some (0, [2, 126, 1, 0, 30, 0, 0, 0, 1, 0xF5, 0, 0, 0, 1]) ∧
    read live .cueRead .cueRead [23] = some (0, [0, 128, 0, 0]) ∧ read live .cueRead .cueRead [24] = some (6, []) ∧
    read live .lineRead .lineRead [2] = some (0x13, []) ∧
    read (lined (line256 11 3)) .lineRead .lineRead [2] = some (0, [0, 0x10, 0, 0, 1, 0, 0, 11, 0, 3, 1, 0, 0]) ∧
    read (lined { line256 0 0 with state := .clearing 258 }) .lineRead .lineRead [2] =
      some (0, [0, 0x10, 0, 0, 1, 0, 0, 0, 0, 0, 0, 1, 2]) ∧
    read live .pinRead .pinRead [] = some (0, List.replicate 20 0) := by decide +kernel

/-- A CUE POST of group A with trigger NEXT and some edits. -/
def post (tag : Byte) (count : Byte) (edits : List Byte) : List Byte := [tag, 0, 1, 0, 0, 0, 0, 0, 0, count] ++ edits

/-- An edit GAIN of A0 on bus 2 to unity. -/
def gainEdit : List Byte := [1, 0, 2, 0x10, 0, 0]

/-- `live` with so many cues of 6 edits each, but for the last. -/
def crowded (n last : Nat) : State :=
  let edits (i : Nat) : List Edit := List.replicate (if i + 1 = n then last else 6) (.drop 0 2)
  { live with cues := (List.range n).map fun i => cueA (BitVec.ofNat 8 (100 + i)) .next 0 (edits i) }

theorem test_meets_CuePostChecksAndAdmits :
    let p (s : State) (b : List Byte) := after .cuePost (asked s .cuePost b)
    let armedPin := live.setPin 0 { live.pins[(0 : PinId)] with role := .triggerRise }
    (asked live .cuePost (post 1 1 gainEdit)).Asks (req .cuePost (post 1 1 gainEdit)) .cuePost (post 1 1 gainEdit) ∧
    cueOf (post 1 1 gainEdit) = some (cueA 1 .next 0 [.gain 0 2 1048576]) ∧
    cueOf (post 1 0 []) = none ∧ cueOf (post 1 1 [4, 16, 2, 0, 0, 0]) = none ∧ cueOf (post 1 1 [2, 0, 2, 0, 0, 1]) = none ∧
    cueOf (post 1 1 [5, 1, 2, 0, 0, 1]) = none ∧ cueOf (post 1 1 [6, 0, 2, 0, 0, 0]) = none ∧ cueOf (post 1 2 gainEdit) = none ∧
    cueOf ([1, 2, 1, 0, 0, 0, 0, 0, 0, 1] ++ gainEdit) = none ∧ cueOf ([1, 0, 1, 0, 0, 0, 1, 0, 0, 1] ++ gainEdit) = none ∧
    cueOf ([1, 0, 1, 0, 0, 0, 0, 0x10, 0, 1] ++ gainEdit) = none ∧ cueOf ([1, 0, 4, 0, 0, 0, 0, 0, 0, 1] ++ gainEdit) = none ∧ cueOf [1, 0, 2, 0, 0, 0, 4, 0, 0, 1, 1, 0, 2, 0, 0, 0] = none ∧
    reply (p live (post 1 1 gainEdit)) = some (0, [1, 127]) ∧ ((p live (post 1 1 gainEdit)).bus 2).holdCount = 1 ∧
    reply (p (crowded 1 6) (post 100 1 gainEdit)) = some (0x0C, []) ∧ reply (p State.reset (post 1 1 gainEdit)) = some (7, []) ∧
    reply (p live ([1, 0, 2, 0, 0, 0, 0, 0, 0, 1] ++ gainEdit)) = some (0x10, []) ∧
    reply (p armedPin ([1, 0, 2, 0, 0, 0, 0, 0, 0, 1] ++ gainEdit)) = some (0, [1, 127]) ∧
    reply (p live ([1, 0, 3, 0, 0, 0, 9, 0, 0, 1] ++ gainEdit)) = some (0x0D, []) := by decide +kernel

theorem test_meets_CuePostChecksAndAdmits_edits :
    let p (s : State) (b : List Byte) := after .cuePost (asked s .cuePost b)
    let line := lined (line256 0 0)
    reply (p live (post 1 2 (gainEdit ++ [1, 4, 2, 0, 0, 0]))) = some (0x11, [2]) ∧
    reply (p live (post 1 1 [3, 4, 5, 0, 0, 0])) = some (0x12, [1]) ∧ reply (p live (post 1 1 [5, 0, 2, 0, 0, 1])) = some (0x13, [1]) ∧
    reply (p line (post 1 1 [5, 0, 2, 0, 1, 0])) = some (6, [1]) ∧ reply (p line (post 1 1 [5, 0, 2, 0, 0, 255])) = some (0, [1, 127]) ∧
    reply (p (crowded 24 2) (post 1 1 gainEdit)) = some (0x0E, []) ∧ (crowded 21 8).poolUsed = 128 ∧
    reply (p (crowded 21 8) (post 1 1 gainEdit)) = some (0x0F, []) ∧ reply (p (crowded 21 7) (post 1 1 gainEdit)) = some (0, [22, 0]) := by
  decide +kernel

theorem test_meets_CuePostChecksAndAdmits_payload :
    let c := { cueA 1 (.atFrame 0xFFFFFFFF) 4095 (List.replicate 8 (.delay 15 (2 ^ 24 - 1))) with group := .B }
    1 ≤ c.edits.length ∧ c.edits.length ≤ 8 ∧
    cueOf ([1, 1, 0, 255, 255, 255, 255, 0x0F, 0xFF, 8] ++ (List.replicate 8 [5, 0, 15, 255, 255, 255]).flatten) = some c := by
  decide +kernel

theorem test_meets_CueCancelWithdrawsTheChain :
    let t (s : State) (tag : Byte) := after .cueCancel (asked s .cueCancel [tag])
    chapter6.TagsDistinct ∧ (asked chapter6 .cueCancel [22]).Asks (req .cueCancel [22]) .cueCancel [22] ∧
    reply (t chapter6 99) = some (0x0D, []) ∧ reply (t chapter6 22) = some (0, [2]) ∧
    (t chapter6 22).cues.map Cue.tag = [20, 21, 24] ∧ reply (t chapter6 20) = some (0, [2]) ∧
    (t chapter6 20).mix.xp.map (fun e => e.state) = [.steady, .steady, .steady] := by decide +kernel

theorem test_meets_DueTest :
    let due (c : Cue) (n : FrameNo) := c.isDue .A n
    due (cueA 1 (.atFrame 0xFFFFFFFF) 0 []) 0x7FFFFFFE = true ∧ due (cueA 1 (.atFrame 0xFFFFFFFF) 0 []) 0x7FFFFFFF = false ∧
    due (cueA 1 (.atFrame 5) 0 []) 5 = true ∧ due (cueA 1 (.atFrame 5) 0 []) 4 = false ∧ due (cueA 1 .next 0 []) 0 = true ∧
    due { cueA 1 .next 0 [] with deferred := true } 0 = false ∧ due { cueA 1 (.pin 3) 0 [] with armed := true } 0 = true ∧
    due (cueA 1 (.after 9) 0 []) 0 = false ∧ due (applyingA 1 0 1) 0 = false := by decide +kernel

/-! ### States that meet the hypotheses of the statements: the stages of a pass -/

theorem test_meets_CueStartTakesTheDueCues :
    let t := after (.cueStart .A) chapter6
    let empty := flying live { pass2 .cueStart [] .waiting with buses := [] }
    (chapter6.pass .A).map (fun p => (p.stage, p.frame)) = some (.cueStart, 2003) ∧ chapter6.TagsDistinct ∧
    (cueA 21 (.atFrame 2003) 2 []).isDue .A 2003 = true ∧ (cueA 24 (.after 20) 0 []).isDue .A 2003 = false ∧
    (t.cues.map fun c => (c.tag, c.state)) =
      [(20, .applying), (21, .applying), (22, .waiting), (23, .waiting), (24, .waiting)] ∧
    (after (.cueStart .A) empty).pass .A = none := by decide +kernel

theorem test_meets_TakenCuesApplyAndComplete :
    let quick := flying ((live.takeHolds [.route 5 2]).enterCue (cueA 24 .next 0 [.route 5 2])) (pass2 .cueStart [] .waiting)
    let t := after (.cueStart .A) quick
    (cueA 24 .next 0 [.route 5 2]) ∈ quick.cues ∧ quick.TagsDistinct ∧ t.cues = [] ∧ t.route 5 = .owned 2 ∧
    (after (.cueStart .A) chapter6).cues.map Cue.outstanding = [1, 2, 0, 0, 0] ∧
    ((chapter6.completeCue 21).cues.map fun c => (c.tag, c.trigger, c.deferred)) =
      [(20, .next, false), (22, .next, true), (23, .after 22, false), (24, .after 20, false)] := by decide +kernel

theorem test_meets_GainAndDropEdits :
    let x (n : Nat) : CueContext := { group := .A, frame := 1, tag := 9, rampLength := n }
    let s := liveXp [entry 0 2 100 .steady] [applyingA 9 4 0]
    let full := s.setXp (List.replicate 96 (entry 3 3 0 .steady))
    s.isInput 1 = true ∧ s.TableInOrder ∧ xpFind s.mix.xp 1 2 = none ∧ s.mix.xp.length < 96 ∧ s.applyEdit (x 0) (.drop 1 2) = s ∧
    (s.applyEdit (x 0) (.gain 1 2 7)).mix.xp = [entry 0 2 100 .steady, entry 1 2 7 .steady] ∧
    (s.applyEdit (x 4) (.gain 1 2 7)).mix.xp = [entry 0 2 100 .steady, entry 1 2 0 (.ramping ⟨0, 7, 4, 0, 9⟩)] ∧
    xpFind s.mix.xp 0 2 = some (entry 0 2 100 .steady) ∧ (s.applyEdit (x 0) (.drop 0 2)).mix.xp = [] ∧
    (s.applyEdit (x 4) (.drop 0 2)).mix.xp = [entry 0 2 100 (.fading ⟨100, 0, 4, 0, 9⟩)] ∧
    (s.applyEdit (x 4) (.gain 0 2 7)).mix.xp = [entry 0 2 100 (.ramping ⟨100, 7, 4, 0, 9⟩)] ∧
    (full.applyEdit (x 0) (.gain 1 2 7)).faults.map FaultRecord.code = [.xpFull] := by decide +kernel

/-- An edit of cue 9 takes over a ramp of cue 8: with one ramp left cue 8 completes and its dependent becomes NEXT, with two it goes on; an edit of cue 8 itself completes nothing. -/
theorem test_meets_GainAndDropEdits_take_over :
    let x (tag : Byte) (n : Nat) : CueContext := { group := .A, frame := 1, tag := tag, rampLength := n }
    let s (k : Nat) : State :=
      liveXp [entry 0 2 50 (.ramping ⟨0, 100, 4, 2, 8⟩)] [applyingA 8 4 k, applyingA 9 4 0, cueA 10 (.after 8) 0 []]
    let told (k : Nat) : State := { s k with link := { (s k).link with enable := 0x7F } }
    let show_ (t : State) := t.cues.map fun c => (c.tag, c.outstanding, c.trigger)
    (s 1).TagsDistinct ∧ (s 1).TableInOrder ∧ xpFind (s 1).mix.xp 0 2 = some (entry 0 2 50 (.ramping ⟨0, 100, 4, 2, 8⟩)) ∧
    show_ ((s 1).applyEdit (x 9 4) (.gain 0 2 7)) = [(9, 1, .next), (10, 0, .next)] ∧
    show_ ((s 2).applyEdit (x 9 4) (.gain 0 2 7)) = [(8, 1, .next), (9, 1, .next), (10, 0, .after 8)] ∧
    show_ ((s 1).applyEdit (x 8 4) (.gain 0 2 7)) = [(8, 1, .next), (9, 0, .next), (10, 0, .after 8)] ∧
    show_ ((s 1).applyEdit (x 9 0) (.drop 0 2)) = [(9, 0, .next), (10, 0, .next)] ∧
    show_ ((s 1).applyEdit (x 8 0) (.gain 0 2 7)) = [(8, 0, .next), (9, 0, .next), (10, 0, .after 8)] ∧
    ((told 1).applyEdit (x 9 4) (.drop 0 2)).link.notice .cueDone = some ⟨.cueDone .A 8, false⟩ := by decide +kernel

/-- A table with as many entries as it can hold. -/
def fullTable : List Entry :=
  (List.range 96).map fun i => entry (Fin.ofNat 16 (i % 16)) (Fin.ofNat 16 (4 + i / 16)) 0 .steady

theorem test_meets_GainAndDropEdits_full :
    let s := live.setXp fullTable
    s.TableInOrder ∧ 96 ≤ s.mix.xp.length ∧ xpFind s.mix.xp 1 2 = none ∧
    (s.applyEdit { group := .A, frame := 1, tag := 9, rampLength := 0 } (.gain 1 2 7)).faults =
      [{ FaultRecord.of .xpFull .A 1 with channel := some 1, bus := some 2, tag := some 9 }] := by decide +kernel

theorem test_meets_RouteDelayAndVoidEdits :
    let x : CueContext := { group := .A, frame := 1, tag := 9, rampLength := 0 }
    let s := retireExample
    let l := lined (line256 0 0)
    s.route 5 = .free ∧ (s.applyEdit x (.route 5 2)).route 5 = .owned 2 ∧ ((s.applyEdit x (.route 5 2)).bus 2).ownedCount = 2 ∧
    s.route 4 = .owned 2 ∧ (s.applyEdit x (.unroute 4 2)).route 4 = .free ∧ (s.applyEdit x (.unroute 4 3)).route 4 = .owned 2 ∧
    (s.applyEdit x (.route 4 3)).route 4 = .clashed 2 3 ∧ s.route 7 = .clashed 2 3 ∧ (s.applyEdit x (.route 7 5)).route 7 = .clashed 3 5 ∧
    (s.applyEdit x (.route 7 5)).faults.map (fun f => (f.bus, f.secondBus)) = [(some 3, some 5)] ∧ s.route 0 = .absent ∧
    (s.applyEdit x (.route 0 2)).faults.map FaultRecord.code = [.editVoid] ∧ s.isInput 4 = false ∧
    (s.applyEdit x (.gain 4 2 0)).faults.map FaultRecord.channel = [some 4] ∧
    (l.applyEdit x (.delay 2 255)).line 2 = some (line256 0 255) ∧
    (l.applyEdit x (.delay 2 256)).faults.map FaultRecord.code = [.editVoid] ∧
    (l.applyEdit x (.delay 3 0)).faults.map FaultRecord.channel = [none] := by decide +kernel

theorem test_meets_GainStepAdvancesTheRamps :
    let s := flying (liveXp [entry 0 2 0 (.ramping ⟨0, 8, 2, 1, 20⟩), entry 1 2 5 (.fading ⟨5, 0, 2, 1, 21⟩),
        entry 2 2 6 (.fading ⟨6, 0, 3, 1, 21⟩), entry 3 2 1 .steady, entry 3 3 8 (.ramping ⟨0, 8, 4, 1, 20⟩)]
      [applyingA 20 2 2, applyingA 21 3 2]) (pass2 .gainStep [] .waiting)
    let t := after (.gainStep .A) s
    let r : Ramp := ⟨1048576, 0, 100, 30, 41⟩
    (s.pass .A).map Pass.stage = some .gainStep ∧ 1 ≤ r.length ∧ (r.gainAt 30).toInt = 734004 ∧ (r.gainAt 0).toInt = 1048576 ∧
    (r.gainAt 100).toInt = 0 ∧
    t.mix.xp = [entry 0 2 8 .steady, entry 2 2 2 (.fading ⟨6, 0, 3, 2, 21⟩), entry 3 2 1 .steady,
                entry 3 3 8 (.ramping ⟨0, 8, 4, 1, 20⟩)] ∧
    (t.bus 2).entryCount = 3 ∧ t.cues.map Cue.outstanding = [1, 1] ∧
    (t.pass .A).map (fun p => p.buses.map PassBus.terms) = some [[(0, 8), (2, 2), (3, 1)]] := by decide +kernel

/-- Three ramps end at one step; cue 21, whose last ramp comes first, completes before cue 20. -/
theorem test_meets_GainStepAdvancesTheRamps_completions :
    let s := flying (liveXp [entry 0 2 0 (.ramping ⟨0, 8, 2, 1, 20⟩), entry 1 2 5 (.fading ⟨5, 0, 2, 1, 21⟩),
        entry 2 2 6 (.ramping ⟨0, 8, 2, 1, 20⟩), entry 3 2 8 (.ramping ⟨0, 8, 4, 1, 22⟩)]
      [applyingA 20 2 2, applyingA 21 2 1, applyingA 22 4 1, cueA 23 (.after 20) 0 []]) (pass2 .gainStep [] .waiting)
    let s : State := { s with link := { s.link with enable := 0x7F } }
    let t := after (.gainStep .A) s
    s.TagsDistinct ∧ s.RampCountsExact ∧ s.TableInOrder ∧
    (t.cues.map fun c => (c.tag, c.outstanding, c.trigger, c.deferred)) = [(22, 1, .next, false), (23, 0, .next, true)] ∧
    t.link = (s.link.occur .cueDone (.cueDone .A 21)).occur .cueDone (.cueDone .A 20) := by decide +kernel

theorem test_meets_RoundingFollowsTheSetting :
    (-2 : Int) ^ 50 ≤ 2 ^ 50 ∧ (2 : Int) ^ 20 ∣ 2 ^ 50 ∧ roundSum .convergent (2 ^ 50) = 2 ^ 30 ∧
    roundSum .truncate (-2 ^ 50) = -2 ^ 30 ∧ roundSum .convergent (2 ^ 19) = 0 ∧ roundSum .convergent (3 * 2 ^ 19) = 2 := by
  decide +kernel

theorem test_meets_AccumulateSumsAndClips :
    let run (gain : Gain) (o : Overflow) : State :=
      let p := pass2 .accumulate [(0, gain)] .waiting
      let s : State := { live with link := { live.link with enable := 0x7F } }
      after (.accumulate .A) (flying s { p with buses := p.buses.map fun i => { i with overflow := o } })
    let result (s : State) := (s.pass .A).map fun p => p.buses.map fun i => i.result.toInt
    result (run 1048576 .saturate) = some [1000001] ∧ result (run 8388607 .saturate) = some [8000007] ∧
    result (run (-8388608) .wrap) = some [-8000008] ∧
    (let big := pass2 .accumulate [(0, 8388607), (1, 8388607)] .waiting
     let s : State := { live with link := { live.link with enable := 0x7F } }
     let t := after (.accumulate .A) (flying s big)
     result t = some [8388607] ∧ (t.bus 2).clip = true ∧ t.link.notice .clip = some ⟨.clip 4, false⟩ ∧
     (after (.accumulate .A) (t.setPass .A (some big))).link.notice .clip = some ⟨.clip 4, false⟩) := by decide +kernel

theorem test_meets_PlacementAndEndOfAPass :
    let s := flying (live.setRoute 4 (.owned 2)) (pass2 .exchange [] (.known 5))
    let left := s.setPass .A (some { pass2 .exchange [] .waiting with leftLocked := true })
    (left.pass .A).map Pass.leftLocked = some true ∧ (left.group .A).state = .locked ∧ left.place .A 2 9 = left ∧
    (s.place .A 2 9).word.outSlot[(4 : Channel)] = ⟨9, true⟩ ∧ (s.place .A 2 9).word.outSlot[(5 : Channel)] = ⟨0, false⟩ ∧
    (s.finishPass .A).pass .A = none ∧ left.finishPass .A = left := by decide +kernel

theorem test_meets_VisitWithoutAnExchange :
    let own (s : State) := flying (s.setRoute 4 (.owned 2)) (pass2 .exchange [] .waiting)
    let out (s : State) := (after (.exchangeVisit .A) (own s)).word.outSlot[(4 : Channel)]
    ((own live).pass .A).map Pass.stage = some .exchange ∧ out live = ⟨41000, true⟩ ∧ out (lined (line256 0 0)) = ⟨41000, true⟩ ∧
    out (lined { line256 0 9 with state := .clearing 0 }) = ⟨0, true⟩ := by decide +kernel

theorem test_meets_ExchangesWithTheLine :
    let go (s : State) := after (.exchangeVisit .A) (flying s (pass2 .exchange [] .waiting))
    let s := lined (line256 0 255)
    let reads (s : State) (n : Nat) : State := { s with mem := { s.mem with access := some .refresh, readQ := List.replicate n ⟨1, .B, 9⟩ } }
    let writes (s : State) (n : Nat) : State :=
      { s with mem := { s.mem with access := some .refresh, writeQ := List.replicate n ⟨1, 5, .clearEngine⟩ } }
    let freed (t : State) : State := { t with mem := { t.mem with readQ := [], writeQ := [] } }
    (go (reads s 15)).mem.readQ.getLast? = some ⟨4097, .A, 2⟩ ∧ ((go (reads s 15)).line 2).map Line.writeIndex = some 1 ∧
    (go (reads (lined (line256 255 1)) 0)).mem.writeQ = [⟨4351, 41000, .pass .A 2⟩] ∧
    ((go (reads (lined (line256 255 1)) 0)).line 2).map Line.writeIndex = some 0 ∧
    (go (reads s 16)).mem.readWait = [.A] ∧ ((go (reads s 16)).line 2).map Line.writeIndex = some 0 ∧
    (go (writes s 8)).mem.writeWait = [.A] ∧ ((go (writes s 8)).line 2).map Line.writeIndex = some 0 ∧
    ((after (.passReadOffer .A) (freed (go (reads s 16)))).mem.writeQ).length = 1 ∧
    ((after (.passWriteOffer .A) (freed (go (writes s 8)))).mem.writeQ).length = 1 ∧
    after (.passReadOffer .A) (go (reads s 16)) = go (reads s 16) ∧
    after (.passWriteOffer .A) (go (writes s 8)) = go (writes s 8) := by decide +kernel

/-! ### States that meet the hypotheses of the statements: the memory port -/

theorem test_meets_LineRequests :
    let define (s : State) (b : Byte) (base length : BitVec 24) := after .lineDefine (asked s .lineDefine ([b] ++ bytes24 base ++ bytes24 length))
    let s := lined (line256 9 1)
    let waiting := flying s { pass2 .exchange [] .readOutstanding with wait := some ⟨2, none, 4105, 5⟩, outstanding := [] }
    let clear (u : State) (c : Instr) (kind : RequestKind) (b : Byte) := after c (asked u kind [b])
    (asked s .lineClear [2]).Asks (req .lineClear [2]) .lineClear [BitVec.ofNat 8 (2 : BusId).val] ∧
    reply (define s 2 0 256) = some (0x0B, []) ∧ reply (define s 0 0 257) = some (6, []) ∧ reply (define s 0 128 256) = some (6, []) ∧
    reply (define s 0 1048576 256) = some (0x15, []) ∧ reply (define State.reset 0 0 256) = some (0x15, []) ∧
    reply (define s 0 4096 512) = some (0x14, []) ∧ reply (define s 0 1048320 256) = some (0, []) ∧
    (define s 15 4352 256).line 15 = some ⟨4352, 256, 0, 0, .clearing 0⟩ ∧ (define s 15 4352 256).mem.clearing = [15] ∧
    reply (clear s .lineClear .lineClear 3) = some (0x13, []) ∧ reply (clear s .lineRelease .lineRelease 3) = some (0x13, []) ∧
    (clear s .lineClear .lineClear 2).line 2 = some ⟨4096, 256, 0, 1, .clearing 0⟩ ∧ (clear s .lineClear .lineClear 2).mem.clearing = [2] ∧
    (clear (clear s .lineClear .lineClear 2) .lineClear .lineClear 2).mem.clearing = [2] ∧
    (clear (clear s .lineClear .lineClear 2) .lineRelease .lineRelease 2).mem.clearing = [] ∧
    (clear waiting .lineRelease .lineRelease 2).pass .A = none ∧
    (clear waiting .lineRelease .lineRelease 2).line 2 = none := by decide +kernel

theorem test_meets_ClearWriteFillsTheHeadLine :
    let s (k n : Nat) : State :=
      let u := lined { line256 9 3 with state := .clearing k }
      { u with
        link := { u.link with enable := 0x7F }
        mem := { u.mem with clearing := [2], access := some .refresh, writeQ := List.replicate n ⟨1, 5, .clearEngine⟩ } }
    let t (k n : Nat) := after .clearWrite (s k n)
    State.reset.mem.clearing = [] ∧ (t 0 7) = s 0 7 ∧ (t 254 6).line 2 = some { line256 9 3 with state := .clearing 255 } ∧
    (t 254 6).mem.writeQ.getLast? = some ⟨4350, 0, .clearEngine⟩ ∧ (t 255 0).line 2 = some (line256 0 3) ∧
    (t 255 0).mem.writeQ = [⟨4351, 0, .clearEngine⟩] ∧ (t 255 0).mem.clearing = [] ∧
    (t 255 0).link.notice .line = some ⟨.line 2, false⟩ := by decide +kernel

/-- `live` with an access under way, over a word that has been written. -/
def accessing (x : Access) (m : MemoryPort) : State :=
  { live with mem := { m with access := some x, dram := [(4096, 0xFFFFFF85)] } }

theorem test_meets_DramAccessesAndTheArbiter :
    let m := live.mem
    let r : ReadRequest := ⟨5000, .A, 2⟩
    let w : WriteRequest := ⟨5000, 5, .clearEngine⟩
    let v : WriteRequest := ⟨9, 5, .clearEngine⟩
    let p := { pass2 .exchange [] .readOutstanding with outstanding := [(4096, 2)] }
    let s := flying ((accessing (.read 4096 (some (.A, 2)) true) m).setRoute 4 (.owned 2)) p
    let t := after .dramReadComplete s
    let u := after .dramWriteComplete (accessing (.write 4097 8 true) m)
    t.word.outSlot[(4 : Channel)] = ⟨0xFFFF85, true⟩ ∧ t.pass .A = none ∧ t.mem.access = none ∧
    (after .dramReadComplete (accessing (.read 4096 none true) m)).mem.access = none ∧
    u.mem.dram = [(4096, 0xFFFFFF85), (4097, 8)] ∧ Memory.read u.mem.dram 4097 = 8 ∧
    (after .refreshComplete (accessing .refresh { m with openRow := some 4 })).mem.openRow = none ∧
    (after .refreshDue live).mem.access = some .refresh ∧ (after .refreshDue (accessing (.read 1 none true) m)).mem.refreshDue = true ∧
    after .refreshDue State.reset = State.reset ∧
    ({ m with refreshDue := true, readQ := [r] } : MemoryPort).arbitrate.access = some .refresh ∧ m.arbitrate = m ∧
    ({ m with readQ := [r], writeQ := List.replicate 7 v } : MemoryPort).arbitrate.access = some (.read 5000 (some (.A, 2)) false) ∧
    ({ m with readQ := [r], writeQ := List.replicate 8 v, openRow := some 0 } : MemoryPort).arbitrate.access = some (.write 9 5 true) ∧
    ({ m with readQ := [⟨1, .B, 8⟩, r], writeQ := w :: List.replicate 7 v } : MemoryPort).arbitrate.access =
      some (.read 5000 (some (.A, 2)) false) ∧
    ({ m with writeQ := [w], openRow := some 4 } : MemoryPort).arbitrate.access = some (.write 5000 5 true) := by decide +kernel

theorem test_meets_OnlyWritesChangeTheDram :
    let s := accessing (.read 4096 none true) live.mem
    Instr.dramReadComplete ≠ .dramWriteComplete ∧ Instr.dramReadComplete ≠ .hardwareReset ∧
    (after .dramReadComplete s).mem.dram = s.mem.dram ∧ after .dramReadComplete s ≠ s := by decide +kernel

/-! ### States that meet the hypotheses of the statements: what every step keeps -/

theorem test_meets_StepKeepsMemoryCanonical :
    let s := accessing (.write 4090 8 true) live.mem
    s.MemoryCanonical ∧ (after .dramWriteComplete s).mem.dram = [(4090, 8), (4096, 0xFFFFFF85)] := by decide +kernel

theorem test_meets_StepKeepsCapacities :
    let s := { live.setXp fullTable with cues := (crowded 21 8).cues ++ List.replicate 3 (applyingA 1 0 0), faults := [slipB, lateA 2, slipB] }
    let t := queued { s with link := { s.link with replies := List.replicate 4 reply0 } } 4
    t.TableInOrder ∧ t.TableFits ∧ t.CueListFits ∧ t.LinkQueuesFit ∧ t.MemoryQueuesFit ∧ t.FaultStackFits := by decide +kernel

theorem test_meets_StepKeepsHoldCounts :
    chapter6.TagsDistinct ∧ chapter6.AppliedEditsLeft ∧ chapter6.HoldCountsExact ∧ (chapter6.bus 2).holdCount = 5 := by decide +kernel

theorem test_meets_StepKeepsEntryCounts :
    chapter6.TableInOrder ∧ chapter6.EntryCountsExact ∧ (chapter6.bus 2).entryCount = 3 := by decide +kernel

theorem test_meets_StepKeepsRampCounts :
    chapter6.TableInOrder ∧ chapter6.TagsDistinct ∧ chapter6.RampCountsExact ∧ chapter6.rampsOf 20 = 2 := by decide +kernel

theorem test_meets_StepKeepsRoutes :
    let s := retireExample
    (s.quad .A).LanesApart ∧ (s.quad .B).LanesApart ∧ s.RoutesFollowChannels ∧ s.OwnedCountsExact ∧ s.channelsOwnedBy 2 = 1 := by
  decide +kernel

theorem test_meets_StepKeepsGroups :
    let s := live.setQuad .B (.started joinedB)
    s.JoinedIsB ∧ s.bJoined = true ∧ s.GroupConsistent .A ∧ s.GroupConsistent .B := by decide +kernel

/-- Two lines that fill their places, an access at the last word, and a pass that waits with its pair. -/
def addressed : State :=
  let s := (lined (line256 255 255)).setLine 15 (some { base := 1048320, length := 256, writeIndex := 0, delay := 0, state := .clearing 255 })
  flying { s with mem := { s.mem with access := some (.read 1048575 none true) } }
    { pass2 .exchange [] .readOutstanding with wait := some ⟨2, some 4096, 4351, 5⟩ }

theorem test_meets_StepKeepsAddressesAndNeverStops : addressed.AddressesInRange := by decide +kernel

theorem test_meets_StepKeepsAddressesAndNeverStops_lines : addressed.LinesApart ∧ addressed.HeldAtReset := by decide +kernel

theorem test_meets_StepKeepsAddressesAndNeverStops_held :
    let held := after .hardwareReset addressed
    held.resetHeld = true ∧ held.HeldAtReset := by decide +kernel

end Sys2Proof.Tests
end

section
/-! PROOFS. The mix engine's requests that read a bus record, read the route table and clear a route (R44, R56, R58). -/

namespace Sys2Proof.Machine

/-! ### Index bytes of a request (R173) -/

/-- The byte of an index reads back as that index. -/
@[simp] theorem index16Of_ofNat (i : Fin 16) : index16Of (BitVec.ofNat 8 i.val) = some i := by
  have hi : (BitVec.ofNat 8 i.val).toNat = i.val := by
    rw [BitVec.toNat_ofNat]
    omega
  simp [index16Of, hi]

/-- A byte from 10h on names no bus and no channel. -/
theorem index16Of_eq_none {x : Byte} (h : 16 ≤ x.toNat) : index16Of x = none :=
  dif_neg (Nat.not_lt.mpr h)

@[simp] theorem byteAt_cons_zero (x : Byte) (p : List Byte) : byteAt (x :: p) 0 = x := rfl

/-! ### BUS READ (R44) -/

theorem exec_busRead (s : State) : exec .busRead s = .next (s.takeRequest .busRead busRead) := rfl

/-- The byte that says whether a bus has a line (R178). -/
theorem byteOfBool_isSome {α : Type} [DecidableEq α] (o : Option α) :
    byteOfBool o.isSome = if o ≠ none then 1 else 0 := by
  cases o <;> rfl

/-- BUS READ of a bus answers with its record and leaves the state as it is (R44, R178). -/
theorem busRead_bus (s : State) (b : BusId) : busRead [BitVec.ofNat 8 b.val] s = s.accept
    [byteOfBusGroup (s.bus b).group, (s.bus b).rounding.code, (s.bus b).overflow.code, if (s.bus b).clip then 1 else 0,
     BitVec.ofNat 8 (s.bus b).entryCount, BitVec.ofNat 8 (s.bus b).ownedCount, BitVec.ofNat 8 (s.bus b).holdCount,
     if s.line b ≠ none then 1 else 0] := by
  rw [← byteOfBool_isSome]
  simp [busRead, byteOf, byteOfBool]

/-- BUS READ of a byte that names no bus is refused (R44). -/
theorem busRead_noBus (s : State) {x : Byte} (h : 16 ≤ x.toNat) : busRead [x] s = s.refuse .badValue := by
  simp [busRead, index16Of_eq_none h]

/-- Settles O31: the executor answers with what `busRead` reports or refuses. -/
theorem busReadReturnsTheRecord : Obligations.BusReadReturnsTheRecord := by
  intro s f x h
  refine ⟨fun b hb => ?_, fun hx => ?_⟩
  · subst hb
    rw [exec_busRead, takeRequest_reported h (busRead_bus s.taken b)]
    rfl
  · rw [exec_busRead, takeRequest_refused h (busRead_noBus s.taken hx)]

/-! ### ROUTE READ (R58) -/

theorem exec_routeRead (s : State) : exec .routeRead s = .next (s.takeRequest .routeRead routeRead) := rfl

/-- ROUTE READ without a payload answers with the items of all channels and leaves the state as it is (R58). -/
theorem routeRead_nil (s : State) : routeRead [] s = s.accept (allChannels.flatMap fun c => (s.route c).bytes) :=
  if_neg fun h => h rfl

/-- ROUTE READ has no payload: one with a payload is refused (R58). -/
theorem routeRead_payload (s : State) {p : List Byte} (h : p ≠ []) : routeRead p s = s.refuse .badValue :=
  if_pos h

/-- Settles O32: the executor answers with what `routeRead` reports or refuses; the items spelled out are the cases of `Route.bytes`. -/
theorem routeReadReturnsTheTable : Obligations.RouteReadReturnsTheTable := by
  intro s f p h
  refine ⟨fun hp => ?_, fun hp => ?_⟩
  · subst hp
    rw [exec_routeRead, takeRequest_reported h (routeRead_nil s.taken)]
    rfl
  · rw [exec_routeRead, takeRequest_refused h (routeRead_payload s.taken hp)]

/-! ### ROUTE CLEAR (R56) -/

theorem exec_routeClear (s : State) : exec .routeClear s = .next (s.takeRequest .routeClear routeClear) := rfl

/-- A route change written out: the route table gets the entry, and besides it only bus records differ (R55). -/
theorem setRoute_eq (s : State) (c : Channel) (r : Route) : s.setRoute c r =
    { s with mix := { s.mix with routes := s.mix.routes.set c r, buses := (s.setRoute c r).mix.buses } } := by
  unfold State.setRoute
  cases (s.route c).owner <;> cases r.owner <;> rfl

/-- A route change does not look at the link (R55). -/
theorem setRoute_withLink (s : State) (l : Link) (c : Channel) (r : Route) :
    { s with link := l }.setRoute c r = { s.setRoute c r with link := l } := by
  unfold State.setRoute
  rw [show State.route { s with link := l } c = s.route c from rfl]
  cases (s.route c).owner <;> cases r.owner <;> rfl

/-- Taking a frame leaves the route table as it is (R150). -/
@[simp] theorem taken_route (s : State) (c : Channel) : s.taken.route c = s.route c := rfl

/-- An entry is owned by a bus exactly when it is OWNED with that bus recorded (R54). -/
theorem owner_eq_some {r : Route} {b : BusId} : r.owner = some b ↔ r = .owned b := by
  cases r <;> simp [Route.owner]

/-- The bus records when a channel has become FREE: its owner, if it has one, owns one channel less (R55). -/
theorem setRoute_free_bus (s : State) (c : Channel) (b : BusId) : (s.setRoute c .free).bus b =
    if s.route c = .owned b then { s.bus b with ownedCount := (s.bus b).ownedCount - 1 } else s.bus b := by
  rw [setRoute_bus]
  by_cases h : s.route c = .owned b
  · simp [h, Route.owner]
  · simp [h, owner_eq_some]

/-- ROUTE CLEAR of a byte that names no channel is refused (R56). -/
theorem routeClear_outside (s : State) {x : Byte} (h : 16 ≤ x.toNat) : routeClear [x] s = s.refuse .badValue := by
  simp [routeClear, index16Of_eq_none h]

/-- ROUTE CLEAR of a channel that is ABSENT is refused (R56). -/
theorem routeClear_absent {s : State} {c : Channel} (h : s.route c = .absent) :
    routeClear [BitVec.ofNat 8 c.val] s = s.refuse .noChannel := by
  simp [routeClear, h]

/-- ROUTE CLEAR of a channel that is not ABSENT makes it FREE and answers with the entry as it stood (R56). -/
theorem routeClear_present {s : State} {c : Channel} (h : s.route c ≠ .absent) :
    routeClear [BitVec.ofNat 8 c.val] s = (s.setRoute c .free).accept (s.route c).bytes := by
  simp [routeClear, h]

/-- The executor's effect on a ROUTE CLEAR that is accepted: the channel is FREE and the reply is made (R56). -/
theorem exec_routeClear_present {s : State} {f : ReceivedFrame} {c : Channel}
    (ha : s.Asks f .routeClear [BitVec.ofNat 8 c.val]) (h : s.route c ≠ .absent) :
    exec .routeClear s = .next { s.setRoute c .free with link := s.link.answered f .ok (s.route c).bytes } := by
  have hl : (s.taken.setRoute c .free).link = { s.link with requests := s.link.requests.tail } := by simp
  rw [exec_routeClear, takeRequest_accepted ha (routeClear_present (s := s.taken) h) hl, taken_route, State.taken,
    setRoute_withLink]

/-- Settles O33: `routeClear` refuses, or the channel becomes FREE as `setRoute` says. -/
theorem routeClearFreesTheChannel : Obligations.RouteClearFreesTheChannel := by
  intro s f x h
  refine ⟨fun hx => ?_, fun c hc => ?_⟩
  · rw [exec_routeClear, takeRequest_refused h (routeClear_outside s.taken hx)]
  · subst hc
    refine ⟨fun hr => ?_, fun hr => ⟨_, exec_routeClear_present h hr, ?_, setRoute_free_bus s c⟩⟩
    · rw [exec_routeClear, takeRequest_refused h (routeClear_absent (s := s.taken) hr)]
    · rw [setRoute_eq]
      cases s.route c <;> rfl

end Sys2Proof.Machine
end

section
/-! PROOFS. The rounding of an accumulator (R70, R71). -/

namespace Sys2Proof.Machine

/-! ### The two rounding settings (R71) -/

/-- The fraction that TRUNCATE drops sends CONVERGENT up: it lies above one half, or it is one half over an odd integer (R71). -/
def RoundsUp (acc : Int) : Prop :=
  2 ^ 20 < 2 * (acc - roundSum .truncate acc * 2 ^ 20) ∨
    (2 * (acc - roundSum .truncate acc * 2 ^ 20) = 2 ^ 20 ∧ roundSum .truncate acc % 2 = 1)

theorem roundSum_truncate (acc : Int) : roundSum .truncate acc = acc / 2 ^ 20 := rfl

/-- CONVERGENT compares twice the remainder with the scale, and a half looks at the lower integer's parity (R71). -/
theorem roundSum_convergent (acc : Int) : roundSum .convergent acc =
    if 2 * (acc % 2 ^ 20) < 2 ^ 20 then roundSum .truncate acc
    else if 2 ^ 20 < 2 * (acc % 2 ^ 20) then roundSum .truncate acc + 1
    else if roundSum .truncate acc % 2 = 0 then roundSum .truncate acc else roundSum .truncate acc + 1 := rfl

/-- TRUNCATE takes the greatest integer that is not greater than the quotient (R71). -/
theorem roundSum_truncate_floor (acc : Int) :
    roundSum .truncate acc * 2 ^ 20 ≤ acc ∧ acc < (roundSum .truncate acc + 1) * 2 ^ 20 := by
  rw [roundSum_truncate]
  exact ⟨Int.ediv_mul_le acc (by decide), Int.lt_ediv_add_one_mul_self acc (by decide)⟩

/-- CONVERGENT takes the integer of TRUNCATE or, when the fraction sends it up, the one above (R71). -/
theorem roundSum_convergent_cases (acc : Int) :
    (RoundsUp acc ∧ roundSum .convergent acc = roundSum .truncate acc + 1) ∨
      (¬ RoundsUp acc ∧ roundSum .convergent acc = roundSum .truncate acc) := by
  have hrest : acc % 2 ^ 20 = acc - roundSum .truncate acc * 2 ^ 20 := by
    rw [Int.emod_def, roundSum_truncate, Int.mul_comm]
  rw [roundSum_convergent, hrest]
  unfold RoundsUp
  split
  case isTrue below => exact .inr ⟨by omega, rfl⟩
  case isFalse notBelow =>
    split
    case isTrue above => exact .inl ⟨.inl above, rfl⟩
    case isFalse notAbove =>
      split
      case isTrue even => exact .inr ⟨by omega, rfl⟩
      case isFalse odd => exact .inl ⟨.inr (by omega), rfl⟩

/-- CONVERGENT goes one above TRUNCATE exactly when the fraction sends it up (R71). -/
theorem roundSum_convergent_eq_succ_iff (acc : Int) :
    roundSum .convergent acc = roundSum .truncate acc + 1 ↔ RoundsUp acc := by
  obtain ⟨up, hc⟩ | ⟨down, hc⟩ := roundSum_convergent_cases acc
  · exact iff_of_true hc up
  · exact iff_of_false (by omega) down

/-- No integer is nearer to the quotient than the one CONVERGENT takes: it is at most one half away (R71). -/
theorem roundSum_convergent_nearest (acc : Int) :
    2 * (acc - roundSum .convergent acc * 2 ^ 20) ≤ 2 ^ 20 ∧ -2 ^ 20 ≤ 2 * (acc - roundSum .convergent acc * 2 ^ 20) := by
  obtain ⟨lower, upper⟩ := roundSum_truncate_floor acc
  obtain ⟨up, hc⟩ | ⟨down, hc⟩ := roundSum_convergent_cases acc
  · unfold RoundsUp at up
    omega
  · unfold RoundsUp at down
    omega

/-- Halfway between two integers CONVERGENT takes the even one (R71). -/
theorem roundSum_convergent_even {acc : Int}
    (half : 2 * (acc - roundSum .convergent acc * 2 ^ 20) = 2 ^ 20 ∨
      2 * (acc - roundSum .convergent acc * 2 ^ 20) = -2 ^ 20) : roundSum .convergent acc % 2 = 0 := by
  obtain ⟨lower, upper⟩ := roundSum_truncate_floor acc
  obtain ⟨up, hc⟩ | ⟨down, hc⟩ := roundSum_convergent_cases acc
  · unfold RoundsUp at up
    omega
  · unfold RoundsUp at down
    omega

/-- On an integer quotient both settings take that integer (R71). -/
theorem roundSum_eq_of_dvd {acc : Int} (h : (2 : Int) ^ 20 ∣ acc) :
    roundSum .truncate acc = roundSum .convergent acc := by
  have exactly : roundSum .truncate acc * 2 ^ 20 = acc := Int.ediv_mul_cancel h
  obtain ⟨up, -⟩ | ⟨-, hc⟩ := roundSum_convergent_cases acc
  · unfold RoundsUp at up
    omega
  · exact hc.symm

/-- An accumulator from -2^50 to 2^50 is rounded to an integer from -2^30 to 2^30 by either setting (R71). -/
theorem roundSum_bounds (mode : Rounding) {acc : Int} (least : -2 ^ 50 ≤ acc) (greatest : acc ≤ 2 ^ 50) :
    -2 ^ 30 ≤ roundSum mode acc ∧ roundSum mode acc ≤ 2 ^ 30 := by
  cases mode with
  | truncate =>
    obtain ⟨lower, upper⟩ := roundSum_truncate_floor acc
    omega
  | convergent =>
    obtain ⟨notLow, notHigh⟩ := roundSum_convergent_nearest acc
    omega

/-- Settles O43: the laws of the two settings, and `PassBus.rounded` rounds the accumulator by the bus's setting. -/
theorem roundingFollowsTheSetting : Obligations.RoundingFollowsTheSetting := by
  refine ⟨fun acc => ?_, fun samples i => rfl⟩
  refine ⟨roundSum_truncate_floor acc, roundSum_convergent_nearest acc, roundSum_convergent_even, roundSum_eq_of_dvd,
    roundSum_convergent_eq_succ_iff acc, fun least greatest => ?_⟩
  obtain ⟨tLeast, tGreatest⟩ := roundSum_bounds .truncate least greatest
  obtain ⟨cLeast, cGreatest⟩ := roundSum_bounds .convergent least greatest
  exact ⟨tLeast, tGreatest, cLeast, cGreatest⟩

end Sys2Proof.Machine
end

section
/-! PROOFS. The check byte of the link's frames and the bytes of replies and notices (R145 to R147, R158, R179). -/

namespace Sys2Proof.Machine

/-! ### The check register (R146) -/

@[simp] theorem check_nil : check [] = 0 := rfl

/-- One byte more is one more round of the register (R146). -/
theorem check_append_singleton (bs : List Byte) (b : Byte) : check (bs ++ [b]) = crcByte (check bs) b :=
  List.foldl_append

/-- A byte equal to the register clears it, and the eight shifts leave it clear (R146). -/
theorem crcByte_self (r : Byte) : crcByte r r = 0 := by
  rw [crcByte, BitVec.xor_self]
  rfl

/-- Only the clear register is shifted to zero: a bit shifted out leaves 07h's bit 0 behind (R146). -/
theorem eq_zero_of_crcShift_eq_zero {r : Byte} (h : crcShift r = 0) : r = 0 := by
  unfold crcShift at h
  split at h
  case isTrue => exact absurd (congrArg (BitVec.getLsbD · 0) h) (by simp)
  case isFalse clear =>
    have low : r.toNat < 2 ^ 7 := by simpa [BitVec.msb_eq_decide] using clear
    bv_omega

/-- Bytes that are closed by their check bring the register back to zero, and no other last byte does (R146). -/
theorem check_append_eq_zero_iff (bs : List Byte) (b : Byte) : check (bs ++ [b]) = 0 ↔ check bs = b := by
  rw [check_append_singleton]
  constructor
  · intro h
    unfold crcByte at h
    iterate 8 replace h := eq_zero_of_crcShift_eq_zero h
    exact BitVec.xor_eq_zero_iff.mp h
  · rintro rfl
    exact crcByte_self _

/-! ### The judgement of a received frame (R145) -/

/-- The bytes up to the check and the check byte, in a frame that is long enough to hold it. -/
theorem take_succ_eq_take_append_byteAt {bs : List Byte} {i : Nat} (h : i < bs.length) :
    bs.take (i + 1) = bs.take i ++ [byteAt bs i] := by
  rw [List.take_succ_eq_append_getElem h, byteAt, List.getD_eq_getElem?_getD, List.getElem?_eq_getElem h, Option.getD_some]

/-- In a frame that holds its check byte, the register over all of it ends at zero exactly when that byte is the check of the bytes before it (R146). -/
theorem check_take_succ_eq_zero_iff {bs : List Byte} {i : Nat} (h : i < bs.length) :
    check (bs.take (i + 1)) = 0 ↔ check (bs.take i) = byteAt bs i := by
  rw [take_succ_eq_take_append_byteAt h, check_append_eq_zero_iff]

/-- A received frame is BAD_CHECK exactly when it fits, is long enough, and the register over all of it, the check byte included, does not end at zero (R145, R146). -/
theorem judge_badCheck_iff {bs : List Byte} {f : ReceivedFrame} (h : judge bs = some f) :
    f.outcome = .badCheck ↔ ((byteAt bs 2).toNat ≤ 60 ∧ (byteAt bs 2).toNat + 4 ≤ bs.length ∧
      check (bs.take ((byteAt bs 2).toNat + 4)) ≠ 0) := by
  have longest : Config.maxPayload = 60 := rfl
  have closed (long : (byteAt bs 2).toNat + 3 < bs.length) := check_take_succ_eq_zero_iff long
  simp only [judge] at h
  split at h
  case isTrue few => cases h
  case isFalse =>
    split at h
    case isTrue tooLong =>
      cases h
      exact iff_of_false FrameOutcome.noConfusion (by omega)
    case isFalse fits =>
      split at h
      case isTrue short =>
        cases h
        exact iff_of_false FrameOutcome.noConfusion (by omega)
      case isFalse long =>
        split at h
        case isTrue differs =>
          cases h
          exact iff_of_true rfl ⟨by omega, by omega, mt (closed (by omega)).mp differs⟩
        case isFalse matched =>
          have ends := (closed (by omega)).mpr (Decidable.not_not.mp matched)
          refine iff_of_false (fun hf => ?_) fun ⟨_, _, bad⟩ => bad ends
          cases hk : kindOf (byteAt bs 0) with
          | none =>
            rw [hk] at h
            cases h
            cases hf
          | some k =>
            rw [hk] at h
            cases h
            cases hf

/-! ### The bytes of replies and notices (R147, R158, R179) -/

/-- A notice frame is its kind byte, the payload length, the more flag and the class's bytes, closed by their check (R147, R179). -/
theorem noticeBytes_eq {s : State} {cls : NoticeClass} {n : PendingNotice} {kind : Byte} {body : List Byte}
    (hkind : 0xC0 + byteOf cls.index.val = kind) (hbody : s.noticeBody cls n.payload = body) :
    s.noticeBytes cls n =
      withCheck ([kind, BitVec.ofNat 8 (1 + body.length), if n.more then 1 else 0] ++ body) := by
  subst hkind hbody
  rw [Nat.add_comm 1]
  rfl

/-- A live payload is read from the state: the groups' states for LOCK, otherwise the number of fault records (R158). -/
theorem noticeBody_live (s : State) (cls : NoticeClass) :
    s.noticeBody cls .live =
      if cls = .lock then [(s.group .A).state.code, (s.group .B).state.code] else [BitVec.ofNat 8 s.faults.length] := by
  cases cls <;> rfl

/-- The mask of MARK fills the two low bits of its byte (R179). -/
theorem noticeBody_mark (s : State) (cls : NoticeClass) (mask : BitVec 2) :
    s.noticeBody cls (.mark mask) = [(0 : BitVec 6) ++ mask] := by
  rw [State.noticeBody, BitVec.setWidth_eq_append (by decide : 2 ≤ 8)]
  rfl

/-- Settles O3: the register is zero again over bytes closed by their check and over no others, and each frame's bytes are those of its layout with their check behind them. -/
theorem checkIsTheCRC : Obligations.CheckIsTheCRC := by
  refine ⟨check_nil, check_append_singleton, fun r => rfl, fun bs => (check_append_eq_zero_iff bs _).mpr rfl,
    fun bs f h => judge_badCheck_iff h, fun r => rfl, fun s cls n => noticeBytes_eq ?kind ?body⟩
  case kind => cases cls <;> rfl
  case body =>
    cases n.payload with
    | live => exact noticeBody_live s cls
    | mark mask => exact noticeBody_mark s cls mask
    | cueDone g tag => rfl
    | clip mask => rfl
    | line b => rfl
    | pin k high => rfl

end Sys2Proof.Machine
end

section
/-! PROOFS. The fault stack: a push, its FAULT notice, and FAULT READ with the bytes of a record (R159, R162 to R165, R179). -/

namespace Sys2Proof.Machine

/-! ### A push (R163) -/

/-- A fault coalesces with a record of the same code and group (R163). -/
abbrev FaultRecord.Matches (top f : FaultRecord) : Prop := top.code = f.code ∧ top.group = f.group

/-- A push onto a top record of the fault's code and group sets its repeated flag and adds no record (R163). -/
theorem pushRecord_coalesces {top f : FaultRecord} (rest : List FaultRecord) (h : top.Matches f) :
    pushRecord f (top :: rest) = { top with repeated := true } :: rest :=
  if_pos h

/-- A push that does not coalesce goes on top while the stack has room (R163). -/
theorem pushRecord_room {f : FaultRecord} {fs : List FaultRecord} (h : ∀ top ∈ fs.head?, ¬ top.Matches f)
    (room : fs.length < 3) : pushRecord f fs = f :: fs := by
  cases fs with
  | nil => rfl
  | cons top rest => exact (if_neg (h top rfl)).trans (if_pos room)

/-- A push that does not coalesce with the top of a full stack goes on top, marked, and the bottom record is lost (R163). -/
theorem pushRecord_full {f : FaultRecord} {fs : List FaultRecord} (h : ∀ top ∈ fs.head?, ¬ top.Matches f)
    (full : 3 ≤ fs.length) : pushRecord f fs = { f with lostBelow := true } :: fs.take 2 := by
  cases fs with
  | nil => exact absurd full (by decide)
  | cons top rest => exact (if_neg (h top rfl)).trans (if_neg (Nat.not_lt.mpr full))

/-- A push keeps the stack within its three records (R163). -/
theorem length_pushRecord_le (f : FaultRecord) {fs : List FaultRecord} (fits : fs.length ≤ 3) :
    (pushRecord f fs).length ≤ 3 := by
  by_cases hm : ∃ top ∈ fs.head?, top.Matches f
  · obtain ⟨top, htop, hmatch⟩ := hm
    obtain ⟨rest, rfl⟩ := List.head?_eq_some_iff.mp htop
    rw [pushRecord_coalesces rest hmatch]
    exact fits
  · have differs : ∀ top ∈ fs.head?, ¬ top.Matches f := fun top htop hmatch => hm ⟨top, htop, hmatch⟩
    by_cases room : fs.length < 3
    · rw [pushRecord_room differs room]
      exact room
    · rw [pushRecord_full differs (Nat.not_lt.mp room)]
      exact Nat.succ_le_succ (List.length_take_le 2 fs)

/-- A push touches the stack and the link, where it is one occurrence of FAULT, and nothing else (R163). -/
theorem pushFault_eq (s : State) (f : FaultRecord) :
    s.pushFault f = { s with faults := pushRecord f s.faults, link := s.link.occur .fault .live } := rfl

/-- Settles O9: the rows of R163's table are the cases of `pushRecord`, and the payload of the notice is read from the stack. -/
theorem faultPushFollowsTheTop : Obligations.FaultPushFollowsTheTop := by
  refine ⟨fun s f fits => ?_, fun s => noticeBody_live s .fault⟩
  rw [pushFault_faults]
  refine ⟨pushFault_eq s f, fun top rest hs hcode hgroup => ?_, pushRecord_room, fun a b c hs differs => ?_,
    length_pushRecord_le f fits⟩
  · rw [hs]
    exact pushRecord_coalesces rest ⟨hcode, hgroup⟩
  · rw [hs]
    exact pushRecord_full (fun _ htop => Option.some.inj htop ▸ differs) Nat.le.refl

/-! ### The bytes of a fault record (R179) -/

/-- The bits of the byte of a number that is written by at most eight bits, the lowest first. -/
theorem getLsbD_byteOf_of_bits {n : Nat} {bits : List Bool} (h : n = (BitVec.ofBoolListLE bits).toNat) (i : Fin 8) :
    (byteOf n).getLsbD i.val = bits.getD i.val false := by
  rw [byteOf, BitVec.getLsbD_ofNat, h, BitVec.testBit_toNat, BitVec.getLsbD_ofBoolListLE, decide_eq_true i.isLt, Bool.true_and]

/-- What a bit adds to a number is its weight or nothing. -/
theorem ite_eq_mul_toNat (b : Bool) (weight : Nat) : (if b then weight else 0) = weight * b.toNat := by
  cases b with
  | false => rfl
  | true => exact (Nat.mul_one weight).symm

/-- The number whose lowest bit is `b` and whose other bits are `bits`. -/
theorem toNat_ofBoolListLE_cons (b : Bool) (bits : List Bool) :
    (BitVec.ofBoolListLE (b :: bits)).toNat = (BitVec.ofBoolListLE bits).toNat * 2 + b.toNat :=
  BitVec.toNat_concat _ b

theorem toNat_ofBoolListLE_nil : (BitVec.ofBoolListLE []).toNat = 0 := rfl

/-- The bits of the presence byte say which fields are there (R179). -/
theorem getLsbD_presence (r : FaultRecord) (i : Fin 8) : r.presence.getLsbD i.val =
    [r.group.isSome, r.channel.isSome, r.bus.isSome, r.secondBus.isSome, r.tag.isSome, r.frame.isSome,
      r.address.isSome].getD i.val false := by
  refine getLsbD_byteOf_of_bits ?_ i
  simp only [ite_eq_mul_toNat, toNat_ofBoolListLE_cons, toNat_ofBoolListLE_nil]
  omega

/-- The bits of the flags byte (R179). -/
theorem getLsbD_flags (r : FaultRecord) (i : Fin 8) :
    (byteOf ((if r.repeated then 1 else 0) + (if r.lostBelow then 2 else 0))).getLsbD i.val =
      [r.repeated, r.lostBelow].getD i.val false := by
  refine getLsbD_byteOf_of_bits ?_ i
  simp only [ite_eq_mul_toNat, toNat_ofBoolListLE_cons, toNat_ofBoolListLE_nil]
  omega

/-! ### FAULT READ (R165) -/

theorem exec_faultRead (s : State) : exec .faultRead s = .next (s.takeRequest .faultRead faultRead) := rfl

/-- FAULT READ has no payload: one with a payload is refused (R165). -/
theorem faultRead_payload (s : State) {p : List Byte} (h : p ≠ []) : faultRead p s = s.refuse .badValue :=
  if_pos h

/-- FAULT READ of an empty stack answers NONE (R165). -/
theorem faultRead_empty {s : State} (h : s.faults = []) : faultRead [] s = s.refuse .none := by
  simp [faultRead, h]

/-- FAULT READ of a stack with more than one record removes the top one and answers with it and the number left (R165). -/
theorem faultRead_leaving {s : State} {top : FaultRecord} {rest : List FaultRecord} (h : s.faults = top :: rest)
    (left : rest ≠ []) :
    faultRead [] s = { s with faults := rest }.accept (top.bytes ++ [BitVec.ofNat 8 rest.length]) := by
  simp [faultRead, h, left, byteOf]

/-- FAULT READ of the last record removes the pending FAULT notice with it (R159, R165). -/
theorem faultRead_last {s : State} {top : FaultRecord} (h : s.faults = [top]) :
    faultRead [] s = { s with faults := [], link := s.link.dropNotice .fault }.accept (top.bytes ++ [0]) := by
  simp [faultRead, h, byteOf]

/-- The executor's effect on a FAULT READ that leaves records: the link changes by the frame and its reply alone (R165). -/
theorem exec_faultRead_leaving {s : State} {f : ReceivedFrame} {top : FaultRecord} {rest : List FaultRecord}
    (ha : s.Asks f .faultRead []) (h : s.faults = top :: rest) (left : rest ≠ []) :
    exec .faultRead s = .next { s with
      faults := rest, link := s.link.answered f .ok (top.bytes ++ [BitVec.ofNat 8 rest.length]) } := by
  rw [exec_faultRead, takeRequest_accepted ha (faultRead_leaving (s := s.taken) h left) (taken_link s)]
  rfl

/-- The executor's effect on a FAULT READ of the last record: the FAULT notice leaves, and the reply is made (R159, R165). -/
theorem exec_faultRead_last {s : State} {f : ReceivedFrame} {top : FaultRecord}
    (ha : s.Asks f .faultRead []) (h : s.faults = [top]) :
    exec .faultRead s = .next { s with
      faults := [], link := (s.link.dropNotice .fault).answered f .ok (top.bytes ++ [0]) } := by
  rw [exec_faultRead, takeRequest_accepted ha (faultRead_last (s := s.taken) h) (Link.dropNotice_answered s.link .fault)]
  rfl

/-- Settles O10: `faultRead` refuses, answers NONE, or takes the top record; the bytes of a record are spelled out bit by bit. -/
theorem faultReadTakesTheTop : Obligations.FaultReadTakesTheTop := by
  refine ⟨fun s f => ⟨fun _ _ => exec_faultRead_leaving, fun _ => exec_faultRead_last,
    fun ha h => ?empty, fun p hp ha => ?payload⟩, fun l => ⟨_, rfl, Link.notice_dropNotice l .fault⟩,
    fun r => ⟨r.presence, byteOf _, rfl, fun i => ?presence, fun i => ?flags⟩⟩
  case empty => rw [exec_faultRead, takeRequest_refused ha (faultRead_empty (s := s.taken) h)]
  case payload => rw [exec_faultRead, takeRequest_refused ha (faultRead_payload s.taken hp)]
  case presence =>
    rw [getLsbD_presence]
    match i with
    | 0 | 1 | 2 | 3 | 4 | 5 | 6 | 7 => rfl
  case flags =>
    rw [getLsbD_flags]
    match i with
    | 0 | 1 | 2 | 3 | 4 | 5 | 6 | 7 => rfl

end Sys2Proof.Machine
end

section
/-! PROOFS. PART IDENTIFY: the strap byte, the DRAM size and the quads' states (R126, R172, R178). -/

namespace Sys2Proof.Machine

/-! ### The bytes of the reply (R178) -/

/-- A bit appended below others doubles them and adds its own value. -/
theorem toNat_append_ofBool {w : Nat} (x : BitVec w) (b : Bool) : (x ++ BitVec.ofBool b).toNat = x.toNat * 2 + b.toNat :=
  BitVec.toNat_concat x b

/-- The strap byte holds the memory straps above the address straps above LINK_SEL, and nothing above them (R178). -/
theorem Straps.byte_eq_append (t : Straps) : Straps.byte t =
    (0 : BitVec 3) ++ BitVec.ofBool t.memSz1 ++ BitVec.ofBool t.memSz0 ++ BitVec.ofBool t.addr1 ++ BitVec.ofBool t.addr0
      ++ BitVec.ofBool t.linkSel := by
  have high : (0 : BitVec 3).toNat = 0 := rfl
  have memSz1 := t.memSz1.toNat_le
  have memSz0 := t.memSz0.toNat_le
  have addr1 := t.addr1.toNat_le
  have addr0 := t.addr0.toNat_le
  have linkSel := t.linkSel.toNat_le
  apply BitVec.eq_of_toNat_eq
  rw [Straps.byte, byteOf, BitVec.toNat_ofNat]
  simp only [toNat_append_ofBool, high, ite_eq_mul_toNat]
  omega

/-- The eight bits of a 24-bit number from `start` on are the low byte of its quotient by their weight. -/
theorem extractLsb'_ofNat_24 (n : Nat) {start weight : Nat} (inside : start + 8 ≤ 24) (hweight : 2 ^ start = weight) :
    (BitVec.ofNat 24 n).extractLsb' start 8 = BitVec.ofNat 8 (n / weight) := by
  subst hweight
  apply BitVec.eq_of_getLsbD_eq
  intro i hi
  have below : start + i < 24 := by omega
  rw [BitVec.getLsbD_extractLsb', BitVec.getLsbD_ofNat, BitVec.getLsbD_ofNat, Nat.testBit_div_two_pow, Nat.add_comm i start,
    decide_eq_true hi, decide_eq_true below, Bool.true_and, Bool.true_and]

/-- A number in three bytes, most significant first (R173). -/
theorem num24_eq (n : Nat) :
    num24 n = [BitVec.ofNat 8 (n / 65536), BitVec.ofNat 8 (n / 256), BitVec.ofNat 8 n] := by
  have top := extractLsb'_ofNat_24 n (start := 16) (weight := 65536) (by decide) (by decide)
  have middle := extractLsb'_ofNat_24 n (start := 8) (weight := 256) (by decide) (by decide)
  have bottom := extractLsb'_ofNat_24 n (start := 0) (weight := 1) (by decide) (by decide)
  rw [num24, bytes24, top, middle, bottom, Nat.div_one]

/-! ### PART IDENTIFY (R172) -/

theorem exec_partIdentify (s : State) : exec .partIdentify s = .next (s.takeRequest .partIdentify identify) := rfl

/-- PART IDENTIFY without a payload answers with the part, the straps, the DRAM size and the quads, and leaves the state as it is (R172). -/
theorem identify_nil (s : State) : identify [] s = s.accept
    [0x28, 0x01,
     (0 : BitVec 3) ++ BitVec.ofBool s.straps.memSz1 ++ BitVec.ofBool s.straps.memSz0 ++ BitVec.ofBool s.straps.addr1
       ++ BitVec.ofBool s.straps.addr0 ++ BitVec.ofBool s.straps.linkSel,
     BitVec.ofNat 8 (s.dramWords / 65536), BitVec.ofNat 8 (s.dramWords / 256), BitVec.ofNat 8 s.dramWords,
     (s.quad .A).code, (s.quad .B).code, if (s.quad .B).plan.map Plan.joined = some true then 1 else 0] := by
  rw [identify, if_neg (not_not_intro rfl), Straps.byte_eq_append, num24_eq]
  cases (s.quad .B).plan with
  | none => rfl
  | some p => simp only [byteOfBool, Option.map_some, Option.some.injEq] <;> rfl

/-- PART IDENTIFY has no payload: one with a payload is refused (R172). -/
theorem identify_payload (s : State) {p : List Byte} (h : p ≠ []) : identify p s = s.refuse .badValue :=
  if_pos h

/-- Settles O15: the executor answers with what `identify` reports or refuses; the size in words is the DRAM's own. -/
theorem partIdentifyReports : Obligations.PartIdentifyReports := by
  intro s f words hwords
  have size : words = s.dramWords := by
    subst hwords
    unfold State.dramWords Straps.dramWords
    cases s.straps.memSz1 <;> cases s.straps.memSz0 <;> rfl
  refine ⟨fun h => ?_, fun p hp h => ?_⟩
  · subst size
    rw [exec_partIdentify]
    exact congrArg Host.Outcome.next (takeRequest_reported h (identify_nil s.taken))
  · rw [exec_partIdentify, takeRequest_refused h (identify_payload s.taken hp)]

end Sys2Proof.Machine
end

section
/-! PROOFS. Facts about lists and numbers beyond core Lean, which is all that the model's files import. -/

namespace Sys2Proof.Machine

variable {α β : Type}

theorem eq_pair_of_length {l : List α} (h : l.length = 2) : ∃ a b, l = [a, b] :=
  match l, h with
  | [a, b], _ => ⟨a, b, rfl⟩

/-- Induction on a list by its last element. -/
theorem snoc_induction {motive : List α → Prop} (nil : motive [])
    (snoc : ∀ (front : List α) (a : α), motive front → motive (front ++ [a])) (l : List α) : motive l := by
  have reversed (k : List α) : motive k.reverse := by
    induction k with
    | nil => exact nil
    | cons a rest ih =>
      rw [List.reverse_cons]
      exact snoc rest.reverse a ih
  have both := reversed l.reverse
  rwa [List.reverse_reverse] at both

/-- Where the images are distinct, the members are told apart by them. -/
theorem eq_of_nodup_map {f : α → β} {l : List α} (distinct : (l.map f).Nodup) {a b : α} (ha : a ∈ l) (hb : b ∈ l) (same : f a = f b) :
    a = b := by
  induction l with
  | nil => cases ha
  | cons c rest ih =>
    rw [List.map_cons, List.nodup_cons] at distinct
    obtain ⟨fresh, distinct⟩ := distinct
    rcases List.mem_cons.mp ha with here | later
    · rcases List.mem_cons.mp hb with here' | later'
      · exact here.trans here'.symm
      · exact absurd (here ▸ same ▸ List.mem_map_of_mem later') fresh
    · rcases List.mem_cons.mp hb with here' | later'
      · exact absurd (here' ▸ same ▸ List.mem_map_of_mem later) fresh
      · exact ih distinct later later'

theorem nodup_singleton (a : α) : [a].Nodup := List.pairwise_singleton _ a

/-- A list without repetition is no longer than a list that holds its members. -/
theorem length_le_of_nodup [DecidableEq α] {k l : List α} (once : k.Nodup) (sub : ∀ a ∈ k, a ∈ l) : k.length ≤ l.length := by
  induction k generalizing l with
  | nil => exact Nat.zero_le _
  | cons a rest ih =>
    rw [List.nodup_cons] at once
    obtain ⟨fresh, once⟩ := once
    have here : a ∈ l := sub a List.mem_cons_self
    have others := ih once (l := l.erase a) fun b hb =>
      have other : b ≠ a := fun same => fresh (same ▸ hb)
      (List.mem_erase_of_ne other).mpr (sub b (List.mem_cons_of_mem a hb))
    rw [List.length_erase_of_mem here] at others
    have some_ := List.length_pos_of_mem here
    rw [List.length_cons]
    omega

/-! ### Sums -/

theorem sum_map_le {f g : α → Nat} {l : List α} (le : ∀ a ∈ l, f a ≤ g a) : (l.map f).sum ≤ (l.map g).sum := by
  induction l with
  | nil => exact Nat.le_refl _
  | cons a rest ih =>
    rw [List.map_cons, List.map_cons, List.sum_cons, List.sum_cons]
    exact Nat.add_le_add (le a List.mem_cons_self) (ih fun b hb => le b (List.mem_cons_of_mem a hb))

theorem sum_le_of_sublist {k l : List Nat} (h : k.Sublist l) : k.sum ≤ l.sum := by
  induction h with
  | slnil => exact Nat.le_refl _
  | cons a _ ih =>
    rw [List.sum_cons]
    exact Nat.le_trans ih (Nat.le_add_left _ a)
  | cons_cons a _ ih =>
    rw [List.sum_cons, List.sum_cons]
    exact Nat.add_le_add_left ih a

/-- Distinct powers of two, in rising order, below 2^n add up to less than 2^n. -/
theorem sum_two_pow_lt {is : List Nat} (rising : is.Pairwise (· < ·)) {n : Nat} (below : ∀ i ∈ is, i < n) :
    (is.map fun k => 2 ^ k).sum < 2 ^ n := by
  induction is using snoc_induction generalizing n with
  | nil => exact Nat.two_pow_pos n
  | snoc front k ih =>
    obtain ⟨rising, -, last⟩ := List.pairwise_append.mp rising
    have front_ := ih rising fun i hi => last i hi k (List.mem_singleton_self k)
    have step : 2 ^ (k + 1) ≤ 2 ^ n :=
      Nat.pow_le_pow_right (by decide) (below k (List.mem_append_right _ (List.mem_singleton_self k)))
    rw [Nat.pow_succ] at step
    rw [List.map_append, List.sum_append, List.map_singleton, List.sum_singleton]
    omega

/-- Their sum has the bits of their exponents. -/
theorem testBit_sum_two_pow {is : List Nat} (rising : is.Pairwise (· < ·)) (i : Nat) :
    (is.map fun k => 2 ^ k).sum.testBit i = decide (i ∈ is) := by
  induction is using snoc_induction with
  | nil => exact Nat.zero_testBit i
  | snoc front k ih =>
    obtain ⟨rising, -, last⟩ := List.pairwise_append.mp rising
    have below (j : Nat) (hj : j ∈ front) : j < k := last j hj k (List.mem_singleton_self k)
    have small := sum_two_pow_lt rising below
    have bits := ih rising
    have mem : i ∈ front ++ [k] ↔ i ∈ front ∨ i = k := by rw [List.mem_append, List.mem_singleton]
    rw [List.map_append, List.sum_append, List.map_singleton, List.sum_singleton, Nat.add_comm, decide_eq_decide.mpr mem]
    rcases Nat.lt_trichotomy i k with lower | rfl | higher
    · rw [Nat.testBit_two_pow_add_gt lower, bits]
      exact decide_eq_decide.mpr ⟨.inl, fun h => h.resolve_right (Nat.ne_of_lt lower)⟩
    · rw [Nat.testBit_two_pow_add_eq, Nat.testBit_lt_two_pow small]
      exact (decide_eq_true (p := i ∈ front ∨ i = i) (.inr rfl)).symm
    · have bound : 2 ^ k + (front.map fun k => 2 ^ k).sum < 2 ^ i := by
        have step : 2 ^ (k + 1) ≤ 2 ^ i := Nat.pow_le_pow_right (by decide) higher
        rw [Nat.pow_succ] at step
        omega
      rw [Nat.testBit_lt_two_pow bound]
      refine (decide_eq_false fun h => ?_).symm
      rcases h with old | rfl
      · exact absurd (below i old) (Nat.not_lt.mpr (Nat.le_of_lt higher))
      · exact absurd higher (Nat.lt_irrefl i)

end Sys2Proof.Machine
end

section
/-! PROOFS. What each request's block can answer: refused or reported with the state as it was, or accepted with one effect (R148, R150). -/

namespace Sys2Proof.Machine

variable (p : List Byte) (s : State)

/-- A pin request touches the general pins alone (R169). -/
theorem pinSet_cases : (pinSet p s).state = s ∨
    (pinSet p s).status = .ok ∧ ∃ pins, (pinSet p s).state = { s with pins := pins } := by
  unfold pinSet
  split
  case h_1 =>
    split
    case isTrue => exact .inl rfl
    case isFalse =>
      split
      case isTrue => exact .inl rfl
      case isFalse =>
        refine .inr ⟨rfl, ?_⟩
        dsimp only
        split
        · exact ⟨_, rfl⟩
        · exact ⟨_, rfl⟩
  case h_2 => exact .inl rfl

/-- NOTICE SET touches the notices, the mask, the mode and the pins alone (R160, R161). -/
theorem noticeSet_cases : (noticeSet p s).state = s ∨
    (noticeSet p s).status = .ok ∧ ∃ (gone : List NoticeClass) (mask : BitVec 7) (two : Bool) (pins : Vector GeneralPin 4),
      (noticeSet p s).state =
        { s with link := { gone.foldl Link.dropNotice s.link with enable := mask, twoLine := two }, pins := pins } := by
  unfold noticeSet
  split
  case h_1 => exact .inl rfl
  case h_2 two _ =>
    split
    case isTrue => exact .inl rfl
    case isFalse =>
      split
      case isTrue => exact .inl rfl
      case isFalse =>
        refine .inr ⟨rfl, s.link.disabled ((byteAt p 0).setWidth 7), (byteAt p 0).setWidth 7, two, ?_⟩
        dsimp only
        split
        · exact ⟨_, rfl⟩
        · exact ⟨_, rfl⟩

/-- FAULT READ takes a record off the stack, and the FAULT notice with the last one (R159, R165). -/
theorem faultRead_cases : (faultRead p s).state = s ∨
    (faultRead p s).status = .ok ∧ ∃ top rest l, s.faults = top :: rest ∧ (l = s.link ∨ l = s.link.dropNotice .fault) ∧
      (faultRead p s).state = { s with faults := rest, link := l } := by
  unfold faultRead
  split
  case isTrue => exact .inl rfl
  case isFalse =>
    split
    case h_1 => exact .inl rfl
    case h_2 top rest hf =>
      refine .inr ⟨rfl, top, rest, ?_⟩
      dsimp only
      split
      · exact ⟨_, hf, .inr rfl, rfl⟩
      · exact ⟨_, hf, .inl rfl, rfl⟩

/-- QUAD PLAN stores a plan in a quad that has not been started (R6). -/
theorem quadPlan_cases : (quadPlan p s).state = s ∨
    (quadPlan p s).status = .ok ∧ ∃ q plan, planOf p = some (q, plan) ∧ (s.quad q).startedPlan = none ∧
      (quadPlan p s).state = s.setQuad q (.planned plan) := by
  unfold quadPlan
  split
  case h_1 => exact .inl rfl
  case h_2 q plan hp =>
    split
    case isTrue => exact .inl rfl
    case isFalse hs =>
      split
      case isTrue => exact .inl rfl
      case isFalse =>
        split
        case isTrue => exact .inl rfl
        case isFalse => exact .inr ⟨rfl, q, plan, hp, by simpa using hs, rfl⟩

/-- QUAD START starts a planned quad, with its own group or joined to a started quad A (R8 to R10). -/
theorem quadStart_cases : (quadStart p s).state = s ∨
    (quadStart p s).status = .ok ∧ ∃ q plan, s.quad q = .planned plan ∧
      ((plan.joined = true ∧ (s.quad .A).startedPlan.isSome = true ∧
          (quadStart p s).state = (s.startQuad q plan).startJoined) ∨
        (plan.joined = false ∧ (quadStart p s).state = (s.startQuad q plan).startGroup q)) := by
  unfold quadStart
  split
  case h_1 => exact .inl rfl
  case h_2 q _ =>
    split
    case isTrue => exact .inl rfl
    case isFalse =>
      split
      case h_1 => exact .inl rfl
      case h_2 => exact .inl rfl
      case h_3 plan hq =>
        split
        case isTrue hj =>
          split
          case h_1 => exact .inl rfl
          case h_2 planA hA =>
            split
            case isTrue => exact .inr ⟨rfl, q, plan, hq, .inl ⟨hj, by simp [hA], rfl⟩⟩
            case isFalse => exact .inl rfl
        case isFalse hj => exact .inr ⟨rfl, q, plan, hq, .inr ⟨by simpa using hj, rfl⟩⟩

/-- LANE RETIRE takes a present lane out of a started quad's plan, with its channels (R12, R13). -/
theorem laneRetire_cases : (laneRetire p s).state = s ∨
    (laneRetire p s).status = .ok ∧ ∃ q i plan l, s.quad q = .started plan ∧ plan.lanes[i] = some l ∧
      ((l.direction = .input ∧
          (laneRetire p s).state = (s.setQuad q (.started (plan.without i))).retireInputs (laneChannel q i l)) ∨
        (l.direction = .output ∧
          (laneRetire p s).state = (s.setQuad q (.started (plan.without i))).retireOutputs (laneChannel q i l))) := by
  unfold laneRetire
  split
  case h_1 q i _ _ =>
    split
    case isTrue => exact .inl rfl
    case isFalse =>
      split
      case h_1 => exact .inl rfl
      case h_2 plan hplan =>
        have hq : s.quad q = .started plan := by
          cases h : s.quad q <;> simp_all [Quad.startedPlan]
        split
        case h_1 => exact .inl rfl
        case h_2 l hl =>
          dsimp only
          split
          case h_1 hd => exact .inr ⟨rfl, q, i, plan, l, hq, hl, .inl ⟨hd, rfl⟩⟩
          case h_2 hd => exact .inr ⟨rfl, q, i, plan, l, hq, hl, .inr ⟨hd, rfl⟩⟩
  case h_2 => exact .inl rfl

/-- GROUP POWER takes a group from STANDBY to ACQUIRING, or halts one that runs (R20). -/
theorem groupPower_cases : (groupPower p s).state = s ∨
    (groupPower p s).status = .ok ∧ ∃ g,
      ((s.group g).state = .standby ∧ (groupPower p s).state = s.acquire g) ∨
      ((s.group g).state ≠ .off ∧ (groupPower p s).state = s.haltGroup g .standby) := by
  unfold groupPower
  split
  case h_1 => exact .inl rfl
  case h_2 g standby _ =>
    split
    case h_1 => exact .inl rfl
    case h_2 hs =>
      cases standby with
      | true => exact .inl rfl
      | false => exact .inr ⟨rfl, g, .inl ⟨hs, rfl⟩⟩
    case h_3 hoff _ =>
      cases standby with
      | true => exact .inr ⟨rfl, g, .inr ⟨hoff, rfl⟩⟩
      | false => exact .inl rfl

/-- GROUP MARK touches a group's mark and mark output alone (R22). -/
theorem groupMark_cases : (groupMark p s).state = s ∨
    (groupMark p s).status = .ok ∧ ∃ g mark mode,
      (groupMark p s).state = s.setGroup g { s.group g with mark := mark, markMode := mode, markOut := false } := by
  unfold groupMark
  split
  case h_1 g mode _ _ =>
    split
    case isTrue => exact .inl rfl
    case isFalse => exact .inr ⟨rfl, g, _, mode, rfl⟩
  case h_2 => exact .inl rfl

/-- BUS SET writes the settings of a bus, its counts kept (R40). -/
theorem busSet_cases : (busSet p s).state = s ∨
    (busSet p s).status = .ok ∧ ∃ b group rounding overflow,
      (busSet p s).state =
        s.modifyBus b fun r => { r with group := group, rounding := rounding, overflow := overflow } := by
  unfold busSet
  split
  case h_1 b group rounding overflow _ _ _ _ =>
    dsimp only
    split
    case isTrue => exact .inl rfl
    case isFalse =>
      split
      case isTrue => exact .inl rfl
      case isFalse => exact .inr ⟨rfl, b, group, rounding, overflow, rfl⟩
  case h_2 => exact .inl rfl

/-- The buses with the clip flags that a mask names cleared (R43). -/
def State.clearClips (s : State) (mask : BitVec 16) : State :=
  { s with mix := { s.mix with
      buses := Vector.ofFn fun b => if mask.getLsbD b.val then { s.mix.buses[b] with clip := false } else s.mix.buses[b] } }

/-- The records after clip flags are cleared. -/
theorem clearClips_bus (mask : BitVec 16) (b : BusId) :
    (s.clearClips mask).bus b = { s.bus b with clip := (s.bus b).clip && !mask.getLsbD b.val } := by
  have h : (s.clearClips mask).bus b = if mask.getLsbD b.val then { s.bus b with clip := false } else s.bus b := by
    simp [State.clearClips, State.bus]
  rw [h]
  cases mask.getLsbD b.val <;> simp

/-- CLIP CLEAR clears the flags its mask names (R43). -/
theorem clipClear_cases : (clipClear p s).state = s ∨
    (clipClear p s).status = .ok ∧ ∃ mask, (clipClear p s).state = s.clearClips mask := by
  unfold clipClear
  split
  case isTrue => exact .inl rfl
  case isFalse => exact .inr ⟨rfl, _, rfl⟩

/-- ROUTE CLEAR frees a channel that is not ABSENT (R56). -/
theorem routeClear_cases : (routeClear p s).state = s ∨
    (routeClear p s).status = .ok ∧ ∃ c, s.route c ≠ .absent ∧ (routeClear p s).state = s.setRoute c .free := by
  unfold routeClear
  split
  case h_1 c _ =>
    split
    case isTrue => exact .inl rfl
    case isFalse =>
      split
      case isTrue => exact .inl rfl
      case isFalse hc => exact .inr ⟨rfl, c, hc, rfl⟩
  case h_2 => exact .inl rfl

/-- A cue that CUE POST reads is WAITING, owns no ramp and has 1 to 8 edits (R88, R92). -/
theorem cueOf_some {p : List Byte} {c : Cue} (h : cueOf p = some c) :
    c.state = .waiting ∧ c.armed = false ∧ c.deferred = false ∧ c.outstanding = 0 ∧ c.edits.length ≠ 0 := by
  have counted : ∀ (n i : Nat) (es : List Edit), editsOf p i n = some es → es.length = n := by
    intro n
    induction n with
    | zero =>
      intro i es he
      cases he
      rfl
    | succ n ih =>
      intro i es he
      rw [editsOf] at he
      split at he
      case h_1 e rest _ hrest =>
        cases he
        rw [List.length_cons, ih _ _ hrest]
      case h_2 => cases he
  simp only [cueOf] at h
  split at h
  case isTrue hc =>
    obtain ⟨_, least, _⟩ := hc
    split at h
    case h_1 g t es _ _ hes =>
      cases h
      have := counted _ _ _ hes
      exact ⟨rfl, rfl, rfl, rfl, by dsimp only; omega⟩
    case h_2 => cases h
  case isFalse => cases h

/-- CUE POST admits a cue whose tag is new, when the list and the pool have room (R89, R92). -/
theorem cuePost_cases : (cuePost p s).state = s ∨
    (cuePost p s).status = .ok ∧ ∃ c, cueOf p = some c ∧ s.findCue c.tag = none ∧ s.cues.length < 24 ∧
      s.poolUsed + c.edits.length ≤ 128 ∧ (cuePost p s).state = s.enterCue c := by
  unfold cuePost
  split
  case h_1 => exact .inl rfl
  case h_2 c hc =>
    split
    case isTrue => exact .inl rfl
    case isFalse hnew =>
      split
      case isTrue => exact .inl rfl
      case isFalse =>
        split
        case h_1 => exact .inl rfl
        case h_2 =>
          split
          case h_1 => exact .inl rfl
          case h_2 =>
            split
            case isTrue => exact .inl rfl
            case isFalse hroom =>
              split
              case isTrue => exact .inl rfl
              case isFalse hpool =>
                obtain ⟨_, _, _, _, some_edit⟩ := cueOf_some hc
                refine .inr ⟨rfl, c, hc, by simpa using hnew, by simpa using hroom, ?_, rfl⟩
                simp only [State.poolFree, show Config.poolSize = 128 from rfl] at hpool
                omega

/-- CUE CANCEL withdraws a cue in the list with the cues chained to it (R101 to R103). -/
theorem cueCancel_cases : (cueCancel p s).state = s ∨
    (cueCancel p s).status = .ok ∧ ∃ tags, (cueCancel p s).state = s.withdrawCues tags := by
  unfold cueCancel
  split
  case isTrue => exact .inl rfl
  case isFalse =>
    dsimp only
    split
    case h_1 => exact .inl rfl
    case h_2 => exact .inr ⟨rfl, _, rfl⟩

/-- The state with a new line, CLEARING from its first word, at the end of the clearing order (R129). -/
def State.addLine (s : State) (b : BusId) (base length : Nat) : State :=
  let t := s.setLine b (some { base := base, length := length, writeIndex := 0, delay := 0, state := .clearing 0 })
  { t with mem := { t.mem with clearing := t.mem.clearing ++ [b] } }

/-- The state with a line that starts its clear afresh (R130). -/
def State.restartLine (s : State) (b : BusId) (l : Line) : State :=
  let t := s.setLine b (some { l with writeIndex := 0, state := .clearing 0 })
  let u := match l.state with
    | .active => { t with mem := { t.mem with clearing := t.mem.clearing ++ [b] } }
    | .clearing _ => t
  u.withdraw b

/-- The state without a bus's line (R131). -/
def State.dropLine (s : State) (b : BusId) : State :=
  let t := s.setLine b none
  ({ t with mem := { t.mem with clearing := t.mem.clearing.filter fun c => decide (c ≠ b) } } : State).withdraw b

/-- LINE DEFINE adds a line of one of the lengths, inside the DRAM and apart from every other line (R129). -/
theorem lineDefine_cases : (lineDefine p s).state = s ∨
    (lineDefine p s).status = .ok ∧ ∃ b base length, s.line b = none ∧ length ∈ lineLengths ∧
      base + length ≤ s.dramWords ∧ (∀ c l, s.line c = some l → overlaps base length l = false) ∧
      (lineDefine p s).state = s.addLine b base length := by
  unfold lineDefine
  split
  case h_1 => exact .inl rfl
  case h_2 b _ =>
    dsimp only
    split
    case isTrue => exact .inl rfl
    case isFalse =>
      split
      case isTrue => exact .inl rfl
      case isFalse hfree =>
        split
        case isTrue => exact .inl rfl
        case isFalse hshape =>
          split
          case isTrue => exact .inl rfl
          case isFalse hfits =>
            split
            case isTrue => exact .inl rfl
            case isFalse hapart =>
              refine .inr ⟨rfl, b, _, _, by simpa using hfree, by simpa using (not_or.1 hshape).1,
                by simpa using (not_or.1 hfits).2, fun c l hl => ?_, rfl⟩
              rw [List.any_eq_true, not_exists] at hapart
              have := hapart c
              simpa [allBuses, hl] using this

/-- LINE CLEAR starts the clear of a line afresh (R130). -/
theorem lineClear_cases : (lineClear p s).state = s ∨
    (lineClear p s).status = .ok ∧ ∃ b l, s.line b = some l ∧ (lineClear p s).state = s.restartLine b l := by
  unfold lineClear
  split
  case h_1 => exact .inl rfl
  case h_2 b _ =>
    split
    case isTrue => exact .inl rfl
    case isFalse =>
      split
      case h_1 => exact .inl rfl
      case h_2 l hl => exact .inr ⟨rfl, b, l, hl, rfl⟩

/-- LINE RELEASE removes a line (R131). -/
theorem lineRelease_cases : (lineRelease p s).state = s ∨
    (lineRelease p s).status = .ok ∧ ∃ b, (lineRelease p s).state = s.dropLine b := by
  unfold lineRelease
  split
  case h_1 => exact .inl rfl
  case h_2 b _ =>
    split
    case isTrue => exact .inl rfl
    case isFalse =>
      split
      case isTrue => exact .inl rfl
      case isFalse => exact .inr ⟨rfl, b, rfl⟩

/-! ### The requests that only report -/

theorem identify_state : (identify p s).state = s := by unfold identify; split <;> rfl
theorem partResetRequest_state : (partResetRequest p s).state = s := by unfold partResetRequest; split <;> rfl
theorem pinRead_state : (pinRead p s).state = s := by unfold pinRead; split <;> rfl
theorem routeRead_state : (routeRead p s).state = s := by unfold routeRead; split <;> rfl
theorem cueRead_state : (cueRead p s).state = s := by simp only [cueRead]; split <;> rfl
theorem groupRead_state : (groupRead p s).state = s := by unfold groupRead; repeat' split
                                                          all_goals rfl
theorem busRead_state : (busRead p s).state = s := by unfold busRead; repeat' split
                                                      all_goals rfl
theorem xpRead_state : (xpRead p s).state = s := by unfold xpRead; repeat' split
                                                    all_goals rfl
theorem lineRead_state : (lineRead p s).state = s := by unfold lineRead; repeat' split
                                                        all_goals rfl
theorem errorAnswer_state (f : ReceivedFrame) : (errorAnswer f s).state = s := by unfold errorAnswer; split <;> rfl

end Sys2Proof.Machine
end

section
/-! PROOFS. The commands of the executor: which frames each takes, and that every taken frame gets one reply (R147, R148, R150). -/

namespace Sys2Proof.Machine

/-! ### Which frames a command takes, and what answers them -/

/-- What a command of the executor takes, and how the frame is answered. -/
structure Request where
  takes : ReceivedFrame → Bool
  run : ReceivedFrame → State → Answer

/-- The request of a kind, answered from its payload. -/
def Request.ofKind (kind : RequestKind) (run : List Byte → State → Answer) : Request :=
  { takes := ReceivedFrame.isKind kind, run := fun f t => run f.payload t }

/-- The request a command carries out; that of PART_RESET is its check and its reply, and the reset comes on top. -/
def requestOf : Instr → Option Request
  | .partIdentify => some (.ofKind .partIdentify identify)
  | .partReset => some (.ofKind .partReset partResetRequest)
  | .pinSet => some (.ofKind .pinSet pinSet)
  | .pinRead => some (.ofKind .pinRead pinRead)
  | .noticeSet => some (.ofKind .noticeSet noticeSet)
  | .faultRead => some (.ofKind .faultRead faultRead)
  | .quadPlan => some (.ofKind .quadPlan quadPlan)
  | .quadStart => some (.ofKind .quadStart quadStart)
  | .laneRetire => some (.ofKind .laneRetire laneRetire)
  | .groupPowerStandby => some { takes := ReceivedFrame.isPower true, run := fun f t => groupPower f.payload t }
  | .groupPowerActive => some { takes := ReceivedFrame.isPower false, run := fun f t => groupPower f.payload t }
  | .groupMark => some (.ofKind .groupMark groupMark)
  | .groupRead => some (.ofKind .groupRead groupRead)
  | .busSet => some (.ofKind .busSet busSet)
  | .busRead => some (.ofKind .busRead busRead)
  | .clipClear => some (.ofKind .clipClear clipClear)
  | .xpRead => some (.ofKind .xpRead xpRead)
  | .routeRead => some (.ofKind .routeRead routeRead)
  | .routeClear => some (.ofKind .routeClear routeClear)
  | .cuePost => some (.ofKind .cuePost cuePost)
  | .cueCancel => some (.ofKind .cueCancel cueCancel)
  | .cueRead => some (.ofKind .cueRead cueRead)
  | .lineDefine => some (.ofKind .lineDefine lineDefine)
  | .lineClear => some (.ofKind .lineClear lineClear)
  | .lineRelease => some (.ofKind .lineRelease lineRelease)
  | .lineRead => some (.ofKind .lineRead lineRead)
  | .errorReply => some { takes := ReceivedFrame.isError, run := errorAnswer }
  | _ => none

/-- A command of the executor but PART_RESET takes a frame of its request and replies (R150). -/
theorem exec_of_requestOf {c : Instr} {r : Request} (h : requestOf c = some r) (hc : c ≠ .partReset) (s : State) :
    exec c s = .next (s.takeFrame r.takes r.run) := by
  cases c
  case partReset => exact absurd rfl hc
  all_goals cases h <;> rfl

/-- PART_RESET takes its frame, and the soft reset comes after an OK reply (R155). -/
theorem exec_partReset (s : State) : exec .partReset s =
    .next (if s.resetAccepted then (s.takeRequest .partReset partResetRequest).softReset
      else s.takeRequest .partReset partResetRequest) := rfl

/-- The commands of the executor are those with a request. -/
theorem requestOf_isSome {c : Instr} (h : c ∈ executorCommands) : ∃ r, requestOf c = some r := by
  have all : ∀ d ∈ executorCommands, (requestOf d).isSome = true := by
    simp [executorCommands, requestOf]
  exact Option.isSome_iff_exists.mp (all c h)

/-! ### What every answer keeps -/

/-- The queue of commands, the link's two queues and the overrun flag are as they were. -/
abbrev State.SameQueues (t s : State) : Prop :=
  t.pending = s.pending ∧ t.link.requests = s.link.requests ∧ t.link.replies = s.link.replies ∧ t.link.overrun = s.link.overrun

/-- An answer leaves the queues alone, and one that is not OK leaves everything. -/
abbrev Answer.Orderly (a : Answer) (s : State) : Prop := a.state.SameQueues s ∧ (a.status ≠ .ok → a.state = s)

theorem orderly_of_state {a : Answer} {s : State} (h : a.state = s) : a.Orderly s := by
  rw [Answer.Orderly, h]
  exact ⟨⟨rfl, rfl, rfl, rfl⟩, fun _ => rfl⟩

theorem orderly_of_ok {a : Answer} {s t : State} (hok : a.status = .ok) (h : a.state = t) (ht : t.SameQueues s) : a.Orderly s :=
  ⟨h ▸ ht, fun hne => absurd hok hne⟩

/-- Notices that leave the notice set one after another leave the queues alone (R159, R160). -/
theorem dropNotices_frame (gone : List NoticeClass) (l : Link) :
    (gone.foldl Link.dropNotice l).requests = l.requests ∧ (gone.foldl Link.dropNotice l).replies = l.replies ∧
    (gone.foldl Link.dropNotice l).overrun = l.overrun ∧ (gone.foldl Link.dropNotice l).addressAck = l.addressAck :=
  ⟨foldl_proj Link.dropNotice Link.requests (fun _ _ => rfl) _ _,
    foldl_proj Link.dropNotice Link.replies (fun _ _ => rfl) _ _,
    foldl_proj Link.dropNotice Link.overrun (fun _ _ => rfl) _ _,
    foldl_proj Link.dropNotice Link.addressAck (fun _ _ => rfl) _ _⟩

/-- What a line that starts its clear afresh leaves alone (R130). -/
@[simp] theorem restartLine_frame (s : State) (b : BusId) (l : Line) :
    (s.restartLine b l).pending = s.pending ∧ (s.restartLine b l).resetHeld = s.resetHeld ∧
    (s.restartLine b l).straps = s.straps ∧ (s.restartLine b l).lane = s.lane ∧ (s.restartLine b l).word = s.word ∧
    (s.restartLine b l).mix.buses = s.mix.buses ∧ (s.restartLine b l).mix.xp = s.mix.xp ∧
    (s.restartLine b l).mix.routes = s.mix.routes ∧ (s.restartLine b l).mem.readQ = s.mem.readQ ∧
    (s.restartLine b l).mem.writeQ = s.mem.writeQ ∧ (s.restartLine b l).mem.openRow = s.mem.openRow ∧
    (s.restartLine b l).mem.access = s.mem.access ∧ (s.restartLine b l).mem.dram = s.mem.dram ∧
    (s.restartLine b l).link = s.link ∧ (s.restartLine b l).faults = s.faults ∧ (s.restartLine b l).pins = s.pins ∧
    (s.restartLine b l).free = s.free := by
  unfold State.restartLine
  cases l.state <;> simp

/-- What a line that is removed leaves alone (R131). -/
@[simp] theorem dropLine_frame (s : State) (b : BusId) :
    (s.dropLine b).pending = s.pending ∧ (s.dropLine b).resetHeld = s.resetHeld ∧
    (s.dropLine b).straps = s.straps ∧ (s.dropLine b).lane = s.lane ∧ (s.dropLine b).word = s.word ∧
    (s.dropLine b).mix.buses = s.mix.buses ∧ (s.dropLine b).mix.xp = s.mix.xp ∧
    (s.dropLine b).mix.routes = s.mix.routes ∧ (s.dropLine b).mem.readQ = s.mem.readQ ∧
    (s.dropLine b).mem.writeQ = s.mem.writeQ ∧ (s.dropLine b).mem.openRow = s.mem.openRow ∧
    (s.dropLine b).mem.access = s.mem.access ∧ (s.dropLine b).mem.dram = s.mem.dram ∧
    (s.dropLine b).link = s.link ∧ (s.dropLine b).faults = s.faults ∧ (s.dropLine b).pins = s.pins ∧
    (s.dropLine b).free = s.free := by
  simp [State.dropLine]

/-- Every request's answer is orderly. -/
theorem run_orderly {c : Instr} {r : Request} (h : requestOf c = some r) (f : ReceivedFrame) (s : State) :
    (r.run f s).Orderly s := by
  cases c <;> cases h
  case partIdentify => exact orderly_of_state (identify_state _ _)
  case partReset => exact orderly_of_state (partResetRequest_state _ _)
  case pinRead => exact orderly_of_state (pinRead_state _ _)
  case groupRead => exact orderly_of_state (groupRead_state _ _)
  case busRead => exact orderly_of_state (busRead_state _ _)
  case xpRead => exact orderly_of_state (xpRead_state _ _)
  case routeRead => exact orderly_of_state (routeRead_state _ _)
  case cueRead => exact orderly_of_state (cueRead_state _ _)
  case lineRead => exact orderly_of_state (lineRead_state _ _)
  case errorReply => exact orderly_of_state (errorAnswer_state _ _)
  case pinSet =>
    obtain h | ⟨ok, pins, h⟩ := pinSet_cases f.payload s
    · exact orderly_of_state h
    · exact orderly_of_ok ok h ⟨rfl, rfl, rfl, rfl⟩
  case noticeSet =>
    obtain h | ⟨ok, gone, mask, two, pins, h⟩ := noticeSet_cases f.payload s
    · exact orderly_of_state h
    · obtain ⟨hq, hr, ho, -⟩ := dropNotices_frame gone s.link
      exact orderly_of_ok ok h ⟨rfl, hq, hr, ho⟩
  case faultRead =>
    obtain h | ⟨ok, top, rest, l, hf, rfl | rfl, h⟩ := faultRead_cases f.payload s
    · exact orderly_of_state h
    · exact orderly_of_ok ok h ⟨rfl, rfl, rfl, rfl⟩
    · exact orderly_of_ok ok h ⟨rfl, rfl, rfl, rfl⟩
  case quadPlan =>
    obtain h | ⟨ok, q, plan, -, -, h⟩ := quadPlan_cases f.payload s
    · exact orderly_of_state h
    · exact orderly_of_ok ok h ⟨rfl, rfl, rfl, rfl⟩
  case quadStart =>
    obtain h | ⟨ok, q, plan, -, ⟨-, -, h⟩ | ⟨-, h⟩⟩ := quadStart_cases f.payload s
    · exact orderly_of_state h
    · exact orderly_of_ok ok h (by simp [State.SameQueues])
    · exact orderly_of_ok ok h (by simp [State.SameQueues])
  case laneRetire =>
    obtain h | ⟨ok, q, i, plan, l, -, -, ⟨-, h⟩ | ⟨-, h⟩⟩ := laneRetire_cases f.payload s
    · exact orderly_of_state h
    · exact orderly_of_ok ok h (by simp [State.SameQueues])
    · exact orderly_of_ok ok h (by simp [State.SameQueues])
  case groupPowerStandby =>
    obtain h | ⟨ok, g, ⟨-, h⟩ | ⟨-, h⟩⟩ := groupPower_cases f.payload s
    · exact orderly_of_state h
    · exact orderly_of_ok ok h (by simp [State.SameQueues])
    · exact orderly_of_ok ok h (by simp [State.SameQueues])
  case groupPowerActive =>
    obtain h | ⟨ok, g, ⟨-, h⟩ | ⟨-, h⟩⟩ := groupPower_cases f.payload s
    · exact orderly_of_state h
    · exact orderly_of_ok ok h (by simp [State.SameQueues])
    · exact orderly_of_ok ok h (by simp [State.SameQueues])
  case groupMark =>
    obtain h | ⟨ok, g, mark, mode, h⟩ := groupMark_cases f.payload s
    · exact orderly_of_state h
    · exact orderly_of_ok ok h ⟨rfl, rfl, rfl, rfl⟩
  case busSet =>
    obtain h | ⟨ok, b, group, rounding, overflow, h⟩ := busSet_cases f.payload s
    · exact orderly_of_state h
    · exact orderly_of_ok ok h ⟨rfl, rfl, rfl, rfl⟩
  case clipClear =>
    obtain h | ⟨ok, mask, h⟩ := clipClear_cases f.payload s
    · exact orderly_of_state h
    · exact orderly_of_ok ok h ⟨rfl, rfl, rfl, rfl⟩
  case routeClear =>
    obtain h | ⟨ok, d, -, h⟩ := routeClear_cases f.payload s
    · exact orderly_of_state h
    · exact orderly_of_ok ok h (by simp [State.SameQueues])
  case cuePost =>
    obtain h | ⟨ok, d, -, -, -, -, h⟩ := cuePost_cases f.payload s
    · exact orderly_of_state h
    · exact orderly_of_ok ok h (by simp [State.SameQueues, State.enterCue])
  case cueCancel =>
    obtain h | ⟨ok, tags, h⟩ := cueCancel_cases f.payload s
    · exact orderly_of_state h
    · exact orderly_of_ok ok h (by simp [State.SameQueues])
  case lineDefine =>
    obtain h | ⟨ok, b, base, length, -, -, -, -, h⟩ := lineDefine_cases f.payload s
    · exact orderly_of_state h
    · exact orderly_of_ok ok h ⟨rfl, rfl, rfl, rfl⟩
  case lineClear =>
    obtain h | ⟨ok, b, l, -, h⟩ := lineClear_cases f.payload s
    · exact orderly_of_state h
    · exact orderly_of_ok ok h (by simp [State.SameQueues])
  case lineRelease =>
    obtain h | ⟨ok, b, h⟩ := lineRelease_cases f.payload s
    · exact orderly_of_state h
    · exact orderly_of_ok ok h (by simp [State.SameQueues])

/-! ### The frame a command takes -/

theorem letterOf_byteOfLetter (g : Letter) : letterOf (byteOfLetter g) = some g := by cases g <;> rfl

/-- A byte that is a letter's code is that letter's byte. -/
theorem byteOfLetter_of_letterOf {b : Byte} {g : Letter} (h : letterOf b = some g) : byteOfLetter g = b := by
  unfold letterOf at h
  split at h
  · cases h; exact BitVec.eq_of_toNat_eq (by simp_all [byteOfLetter])
  · cases h; exact BitVec.eq_of_toNat_eq (by simp_all [byteOfLetter])
  · cases h

/-- A byte that is a flag's code is that flag's byte. -/
theorem byteOfBool_of_bitOf {b : Byte} {x : Bool} (h : bitOf b = some x) : byteOfBool x = b := by
  unfold bitOf at h
  split at h
  · cases h; exact BitVec.eq_of_toNat_eq (by simp_all [byteOfBool])
  · cases h; exact BitVec.eq_of_toNat_eq (by simp_all [byteOfBool])
  · cases h

/-- A GROUP POWER payload names a target exactly when it is the group's byte and the target's (R20, R178). -/
theorem powerTarget_eq_some {p : List Byte} {g : GroupId} {standby : Bool} :
    powerTarget p = some (g, standby) ↔ p = [byteOfLetter g, byteOfBool standby] := by
  constructor
  · intro h
    unfold powerTarget at h
    split at h
    case h_1 g' standby' hg hs =>
      split at h
      case isTrue hlen =>
        cases h
        obtain ⟨a, b, rfl⟩ := eq_pair_of_length hlen
        rw [byteOfLetter_of_letterOf hg, byteOfBool_of_bitOf hs]
        rfl
      case isFalse => cases h
    case h_2 => cases h
  · rintro rfl
    cases g <;> cases standby <;> rfl

/-- A GROUP POWER frame belongs to the command of a target unless it names the other one (R20; log 16). -/
theorem isPower_iff {standby : Bool} {f : ReceivedFrame} : f.isPower standby = true ↔
    f.outcome = .request .groupPower ∧ ∀ g, f.payload ≠ [byteOfLetter g, byteOfBool (!standby)] := by
  unfold ReceivedFrame.isPower ReceivedFrame.isKind
  rw [Bool.and_eq_true, decide_eq_true_iff]
  refine and_congr_right fun _ => ?_
  cases ht : powerTarget f.payload with
  | none =>
    refine iff_of_true rfl fun g hg => ?_
    rw [powerTarget_eq_some.mpr hg] at ht
    cases ht
  | some target =>
    obtain ⟨g, named⟩ := target
    have hp := powerTarget_eq_some.mp ht
    simp only [decide_eq_true_iff]
    constructor
    · rintro rfl g' hg'
      have := ht.symm.trans (powerTarget_eq_some.mpr hg')
      simp at this
    · intro other
      refine Classical.byContradiction fun differs => ?_
      exact other g (Bool.eq_not.mpr differs ▸ hp)

/-- The frames a command takes are those that belong to it. -/
theorem takes_iff_belongsTo {c : Instr} {r : Request} (h : requestOf c = some r) (f : ReceivedFrame) :
    r.takes f = true ↔ f.BelongsTo c := by
  cases c <;> cases h
  case groupPowerStandby => simpa [kindTaken, ReceivedFrame.BelongsTo, byteOfBool] using isPower_iff (standby := true)
  case groupPowerActive => simpa [kindTaken, ReceivedFrame.BelongsTo, byteOfBool] using isPower_iff (standby := false)
  case errorReply =>
    simp only [ReceivedFrame.BelongsTo, kindTaken, true_and, reduceCtorEq, false_and, exists_false, or_false]
    unfold ReceivedFrame.isError
    cases f.outcome <;> simp
  all_goals simp [ReceivedFrame.BelongsTo, kindTaken, Request.ofKind, ReceivedFrame.isKind]

/-! ### One reply for each taken frame -/

/-- The status byte's top bit is the overrun flag (R147). -/
theorem statusByte_msb (st : Status) (overrun : Bool) : (statusByte st overrun).msb = overrun := by
  cases st <;> cases overrun <;> rfl

/-- A status byte whose low seven bits are not zero is not that of OK (R147). -/
theorem ne_ok_of_statusByte {st : Status} {overrun : Bool} (h : statusByte st overrun &&& 0x7F ≠ 0) : st ≠ .ok := by
  rintro rfl
  cases overrun <;> exact h rfl

/-- The effect of a frame that is answered in good order: one reply, and nothing else where the status is not OK. -/
theorem takeFrame_replies {s : State} {f : ReceivedFrame} (hf : s.Takes f) {takes : ReceivedFrame → Bool} (ht : takes f = true)
    {run : ReceivedFrame → State → Answer} (hr : (run f s.taken).Orderly s.taken) :
    ∃ (t : State) (r : Reply), s.takeFrame takes run = t ∧ t.link.replies = s.link.replies ++ [r] ∧ r.tag = f.tag ∧
      r.kind = 0x80 ||| (f.kind &&& 0x3F) ∧ r.status.msb = s.link.overrun ∧ t.link.overrun = false ∧
      t.link.requests = s.link.requests.tail ∧ (r.status &&& 0x7F ≠ 0 → ∃ st, t = s.answered f st r.payload) := by
  obtain ⟨⟨-, hreq, hrep, hover⟩, hrefused⟩ := hr
  refine ⟨_, _, takeFrame_eq hf ht run, congrArg (· ++ _) hrep, rfl, rfl, ?_, rfl, hreq, fun hst => ⟨(run f s.taken).status, ?_⟩⟩
  · exact (statusByte_msb _ _).trans hover
  · rw [hrefused (ne_ok_of_statusByte hst), taken_makeReply]

/-- Where no frame of the command can be taken, nothing changes (R150; log 1). -/
theorem takeFrame_none {s : State} {takes : ReceivedFrame → Bool} (h : ∀ f, s.Takes f → ¬ takes f = true)
    (run : ReceivedFrame → State → Answer) : s.takeFrame takes run = s := by
  obtain hs | ⟨f, hf, ht, -⟩ := takeFrame_cases s takes run
  · exact hs
  · exact absurd ht (h f hf)

/-- A PART RESET is carried out exactly when the frame to be taken is one without a payload (R155). -/
theorem resetAccepted_iff {s : State} : s.resetAccepted = true ↔
    ∃ f, s.Takes f ∧ f.outcome = .request .partReset ∧ f.payload = [] := by
  unfold State.resetAccepted State.takeable State.Takes
  by_cases room : s.link.replies.length < Config.maxReplies
  · simp only [room, if_true]
    cases s.link.requests.head? <;> simp [ReceivedFrame.isKind]
  · simp [room]

/-- Settles O4: the executor takes the command's own frame and answers it in good order, and PART_RESET empties the request queue besides. -/
theorem eachTakenFrameGetsOneReply : Obligations.EachTakenFrameGetsOneReply := by
  intro c hc s
  obtain ⟨r, hr⟩ := requestOf_isSome hc
  by_cases hreset : c = .partReset
  case neg =>
    rw [exec_of_requestOf hr hreset]
    refine ⟨fun f hf hb => ?_, fun hb => ?_⟩
    · obtain ⟨t, reply, ht, h⟩ := takeFrame_replies hf ((takes_iff_belongsTo hr f).mpr hb) (run_orderly hr f s.taken)
      rw [if_neg fun x => hreset x.1]
      exact ⟨t, reply, congrArg _ ht, h⟩
    · rw [takeFrame_none fun f hf ht => hb f hf ((takes_iff_belongsTo hr f).mp ht)]
  case pos =>
    subst hreset
    cases hr
    rw [exec_partReset]
    refine ⟨fun f hf hb => ?_, fun hb => ?_⟩
    · have kind : f.outcome = .request .partReset := by simpa [ReceivedFrame.BelongsTo, kindTaken] using hb
      obtain ⟨t, reply, ht, hreplies, htag, hkind, hstatus, hoverrun, hrequests, hrefused⟩ :=
        takeFrame_replies hf (takes := ReceivedFrame.isKind .partReset) (by simp [ReceivedFrame.isKind, kind])
          (run_orderly (c := .partReset) rfl f s.taken)
      rw [show s.takeRequest .partReset partResetRequest = t from ht]
      by_cases hp : f.payload = []
      · rw [if_pos (resetAccepted_iff.mpr ⟨f, hf, kind, hp⟩), if_pos ⟨rfl, hp⟩]
        have accepted : t = s.answered f .ok [] := by
          rw [← ht, takeFrame_eq hf (by simp [ReceivedFrame.isKind, kind])]
          simp [Request.ofKind, partResetRequest, hp, State.accept]
        refine ⟨t.softReset, reply, rfl, hreplies, htag, hkind, hstatus, rfl, rfl, fun hst => absurd ?_ hst⟩
        have hreply : reply.status = statusByte .ok s.link.overrun := by
          have := hreplies
          rw [accepted] at this
          have last := List.append_cancel_left this
          simp only [List.cons.injEq, and_true] at last
          rw [← last]
          rfl
        rw [hreply]
        cases s.link.overrun <;> rfl
      · have refused : s.resetAccepted ≠ true := fun h => by
          obtain ⟨d, hd, -, hdp⟩ := resetAccepted_iff.mp h
          exact hp (Option.some.inj (hd.2.symm.trans hf.2) ▸ hdp)
        rw [if_neg refused, if_neg fun x => hp x.2]
        exact ⟨t, reply, rfl, hreplies, htag, hkind, hstatus, hoverrun, hrequests, hrefused⟩
    · have none_taken : s.takeRequest .partReset partResetRequest = s := by
        refine takeFrame_none (fun f hf ht => hb f hf ?_) _
        simpa [ReceivedFrame.isKind, ReceivedFrame.BelongsTo, kindTaken] using ht
      have refused : s.resetAccepted ≠ true := fun h => by
        obtain ⟨f, hf, kind, -⟩ := resetAccepted_iff.mp h
        exact hb f hf (by simp [ReceivedFrame.BelongsTo, kindTaken, kind])
      rw [if_neg refused, none_taken]

end Sys2Proof.Machine
end

section
/-! PROOFS. Frames that are no requests, requests with unfit payloads, and the step that runs the front command (R148, R173, R174). -/

namespace Sys2Proof.Machine

/-- Settles O1: both clauses are the two cases of `step`. -/
theorem stepRunsFrontCommand : Obligations.StepRunsFrontCommand := by
  refine ⟨fun c rest s => rfl, fun s h => ?_⟩
  simp [step, h]

/-! ### Unfit payloads (R173, R174) -/

/-- A command of the executor that takes a frame and refuses it answers with the status and changes nothing else. -/
theorem exec_refused {c : Instr} {r : Request} (hr : requestOf c = some r) {s : State} {f : ReceivedFrame} (hf : s.Takes f)
    (hb : f.BelongsTo c) {st : Status} (hst : st ≠ .ok) (hrun : r.run f s.taken = s.taken.refuse st) :
    exec c s = .next (s.answered f st []) := by
  have taken : s.takeFrame r.takes r.run = s.answered f st [] := by
    rw [takeFrame_eq hf ((takes_iff_belongsTo hr f).mpr hb), hrun]
    simp [State.refuse]
  by_cases hreset : c = .partReset
  · subst hreset
    cases hr
    have refused : s.resetAccepted ≠ true := fun h => by
      obtain ⟨d, hd, -, hp⟩ := resetAccepted_iff.mp h
      rw [Option.some.inj (hd.2.symm.trans hf.2)] at hp
      simp only [Request.ofKind, hp, partResetRequest, ne_eq, not_true_eq_false, if_false] at hrun
      exact hst (congrArg Answer.status hrun).symm
    rw [exec_partReset, if_neg refused]
    exact congrArg _ taken
  · rw [exec_of_requestOf hr hreset, taken]

/-- The length a command's payload has, where it is one length (R176 to R178). -/
def payloadLength : Instr → Option Nat
  | .partIdentify | .partReset | .pinRead | .faultRead | .routeRead => some 0
  | .quadStart | .groupRead | .busRead | .routeClear | .cueCancel | .cueRead | .lineClear | .lineRelease | .lineRead => some 1
  | .noticeSet | .laneRetire | .groupPowerStandby | .groupPowerActive | .clipClear | .xpRead => some 2
  | .pinSet | .busSet => some 4
  | .groupMark => some 6
  | .lineDefine => some 7
  | .quadPlan => some 8
  | _ => none

/-- A GROUP POWER payload of another length names no target (R178). -/
theorem powerTarget_none_of_length {p : List Byte} (h : p.length ≠ 2) : powerTarget p = none := by
  rw [Option.eq_none_iff_forall_not_mem]
  rintro ⟨g, standby⟩ ht
  rw [powerTarget_eq_some.mp ht] at h
  exact h rfl

/-- A request whose payload has another length than its layout gives is refused BAD_VALUE (R174). -/
theorem run_badLength {c : Instr} {r : Request} (hr : requestOf c = some r) {n : Nat} (hn : payloadLength c = some n)
    (f : ReceivedFrame) (s : State) (h : f.payload.length ≠ n) : r.run f s = s.refuse .badValue := by
  have given : n = 0 → f.payload ≠ [] := by rintro rfl hp; exact h (by rw [hp]; rfl)
  cases c <;> cases hr <;> cases hn
  case partIdentify => exact if_pos (given rfl)
  case partReset => exact if_pos (given rfl)
  case pinRead => exact if_pos (given rfl)
  case faultRead => exact if_pos (given rfl)
  case routeRead => exact if_pos (given rfl)
  case clipClear => exact if_pos h
  case cueCancel => exact if_pos h
  case cueRead => exact if_pos (.inl h)
  case quadPlan => simp [Request.ofKind, quadPlan, planOf, h]
  case groupPowerStandby => simp [groupPower, powerTarget_none_of_length h]
  case groupPowerActive => simp [groupPower, powerTarget_none_of_length h]
  case pinSet => simp only [Request.ofKind, pinSet]; split <;> simp [h]
  case noticeSet => simp only [Request.ofKind, noticeSet]; split <;> simp [h]
  case quadStart => simp only [Request.ofKind, quadStart]; split <;> simp [h]
  case laneRetire => simp only [Request.ofKind, laneRetire]; split <;> simp [h]
  case groupMark => simp only [Request.ofKind, groupMark]; split <;> simp [h]
  case groupRead => simp only [Request.ofKind, groupRead]; split <;> simp [h]
  case busSet => simp only [Request.ofKind, busSet]; split <;> simp [h]
  case busRead => simp only [Request.ofKind, busRead]; split <;> simp [h]
  case xpRead => simp only [Request.ofKind, xpRead]; split <;> simp [h]
  case routeClear => simp only [Request.ofKind, routeClear]; split <;> simp [h]
  case lineDefine => simp only [Request.ofKind, lineDefine]; split <;> simp [h]
  case lineClear => simp only [Request.ofKind, lineClear]; split <;> simp [h]
  case lineRelease => simp only [Request.ofKind, lineRelease]; split <;> simp [h]
  case lineRead => simp only [Request.ofKind, lineRead]; split <;> simp [h]

/-- A CUE POST is as long as its count of edits says (R177). -/
theorem cueOf_none_of_length {p : List Byte} (h : p.length ≠ 10 + 6 * (byteAt p 9).toNat) : cueOf p = none := by
  simp [cueOf, h]

/-! ### Fields out of range (R173) -/

theorem letterOf_eq_none {b : Byte} (h : 2 ≤ b.toNat) : letterOf b = none := by
  unfold letterOf; split
  · omega
  · omega
  · rfl

theorem bitOf_eq_none {b : Byte} (h : 2 ≤ b.toNat) : bitOf b = none := by
  unfold bitOf; split
  · omega
  · omega
  · rfl

theorem busGroupOf_eq_none {b : Byte} (h : 3 ≤ b.toNat) : busGroupOf b = none := by
  unfold busGroupOf; split
  · omega
  · omega
  · omega
  · rfl

theorem index4Of_eq_none {b : Byte} (h : 4 ≤ b.toNat) : index4Of b = none := dif_neg (Nat.not_lt.mpr h)

theorem pinRoleOf_eq_none {b : Byte} (h : 9 ≤ b.toNat) : pinRoleOf b = none := by
  unfold pinRoleOf; split
  case h_10 => rfl
  all_goals omega

/-- The fields of a command's payload by their offsets, each with the least value it cannot have (R173). -/
def fieldBounds : Instr → List (Nat × Nat)
  | .pinSet => [(0, 4), (1, 9), (2, 2), (3, 2)]
  | .noticeSet => [(0, 128), (1, 2)]
  | .quadStart => [(0, 2)]
  | .laneRetire => [(0, 2), (1, 4)]
  | .groupPowerStandby | .groupPowerActive => [(0, 2), (1, 2)]
  | .groupMark => [(0, 2), (5, 2)]
  | .groupRead => [(0, 2)]
  | .busSet => [(0, 16), (1, 3), (2, 2), (3, 2)]
  | .busRead | .routeClear | .lineDefine | .lineClear | .lineRelease | .lineRead => [(0, 16)]
  | .xpRead => [(0, 16), (1, 16)]
  | .cueRead => [(0, 24)]
  | _ => []

/-- A byte from 80h on has its top bit set. -/
theorem getLsbD_seven_of_le {b : Byte} (h : 128 ≤ b.toNat) : b.getLsbD 7 = true := by
  rw [← BitVec.msb_eq_getLsbD_last b, BitVec.msb_eq_decide]
  exact decide_eq_true h

theorem pinSet_badField {p : List Byte} (s : State) {i n : Nat} (hn : (i, n) ∈ fieldBounds .pinSet)
    (h : n ≤ (byteAt p i).toNat) : pinSet p s = s.refuse .badValue := by
  simp only [fieldBounds, List.mem_cons, Prod.mk.injEq, List.not_mem_nil, or_false] at hn
  unfold pinSet
  split
  case h_1 hk hr hd hp =>
    obtain ⟨rfl, rfl⟩ | ⟨rfl, rfl⟩ | ⟨rfl, rfl⟩ | ⟨rfl, rfl⟩ := hn
    · cases hk.symm.trans (index4Of_eq_none h)
    · cases hr.symm.trans (pinRoleOf_eq_none h)
    · cases hd.symm.trans (bitOf_eq_none h)
    · cases hp.symm.trans (bitOf_eq_none h)
  case h_2 => rfl

theorem noticeSet_badField {p : List Byte} (s : State) {i n : Nat} (hn : (i, n) ∈ fieldBounds .noticeSet)
    (h : n ≤ (byteAt p i).toNat) : noticeSet p s = s.refuse .badValue := by
  simp only [fieldBounds, List.mem_cons, Prod.mk.injEq, List.not_mem_nil, or_false] at hn
  unfold noticeSet
  split
  case h_1 => rfl
  case h_2 hm =>
    obtain ⟨rfl, rfl⟩ | ⟨rfl, rfl⟩ := hn
    · exact if_pos (.inr (getLsbD_seven_of_le h))
    · cases hm.symm.trans (bitOf_eq_none h)

theorem laneRetire_badField {p : List Byte} (s : State) {i n : Nat} (hn : (i, n) ∈ fieldBounds .laneRetire)
    (h : n ≤ (byteAt p i).toNat) : laneRetire p s = s.refuse .badValue := by
  simp only [fieldBounds, List.mem_cons, Prod.mk.injEq, List.not_mem_nil, or_false] at hn
  unfold laneRetire
  split
  case h_1 hq hi =>
    obtain ⟨rfl, rfl⟩ | ⟨rfl, rfl⟩ := hn
    · cases hq.symm.trans (letterOf_eq_none h)
    · cases hi.symm.trans (index4Of_eq_none h)
  case h_2 => rfl

theorem powerTarget_badField {p : List Byte} {i n : Nat} (hn : (i, n) ∈ fieldBounds .groupPowerStandby)
    (h : n ≤ (byteAt p i).toNat) : powerTarget p = none := by
  simp only [fieldBounds, List.mem_cons, Prod.mk.injEq, List.not_mem_nil, or_false] at hn
  unfold powerTarget
  split
  case h_1 hg hs =>
    obtain ⟨rfl, rfl⟩ | ⟨rfl, rfl⟩ := hn
    · cases hg.symm.trans (letterOf_eq_none h)
    · cases hs.symm.trans (bitOf_eq_none h)
  case h_2 => rfl

theorem markModeOf_eq_none {b : Byte} (h : 2 ≤ b.toNat) : markModeOf b = none := by simp [markModeOf, bitOf_eq_none h]

theorem groupMark_badField {p : List Byte} (s : State) {i n : Nat} (hn : (i, n) ∈ fieldBounds .groupMark)
    (h : n ≤ (byteAt p i).toNat) : groupMark p s = s.refuse .badValue := by
  simp only [fieldBounds, List.mem_cons, Prod.mk.injEq, List.not_mem_nil, or_false] at hn
  unfold groupMark
  split
  case h_1 hg hm =>
    obtain ⟨rfl, rfl⟩ | ⟨rfl, rfl⟩ := hn
    · cases hg.symm.trans (letterOf_eq_none h)
    · cases hm.symm.trans (markModeOf_eq_none h)
  case h_2 => rfl

theorem busSet_badField {p : List Byte} (s : State) {i n : Nat} (hn : (i, n) ∈ fieldBounds .busSet)
    (h : n ≤ (byteAt p i).toNat) : busSet p s = s.refuse .badValue := by
  simp only [fieldBounds, List.mem_cons, Prod.mk.injEq, List.not_mem_nil, or_false] at hn
  unfold busSet
  split
  case h_1 hb hg hr ho =>
    obtain ⟨rfl, rfl⟩ | ⟨rfl, rfl⟩ | ⟨rfl, rfl⟩ | ⟨rfl, rfl⟩ := hn
    · cases hb.symm.trans (index16Of_eq_none h)
    · cases hg.symm.trans (busGroupOf_eq_none h)
    · simp [roundingOf, bitOf_eq_none h] at hr
    · simp [overflowOf, bitOf_eq_none h] at ho
  case h_2 => rfl

theorem xpRead_badField {p : List Byte} (s : State) {i n : Nat} (hn : (i, n) ∈ fieldBounds .xpRead)
    (h : n ≤ (byteAt p i).toNat) : xpRead p s = s.refuse .badValue := by
  simp only [fieldBounds, List.mem_cons, Prod.mk.injEq, List.not_mem_nil, or_false] at hn
  unfold xpRead
  split
  case h_1 hb hc =>
    obtain ⟨rfl, rfl⟩ | ⟨rfl, rfl⟩ := hn
    · cases hb.symm.trans (index16Of_eq_none h)
    · cases hc.symm.trans (index16Of_eq_none h)
  case h_2 => rfl

/-- A request with a field out of its range is refused BAD_VALUE (R174). -/
theorem run_badField {c : Instr} {r : Request} (hr : requestOf c = some r) {i n : Nat} (hn : (i, n) ∈ fieldBounds c)
    (f : ReceivedFrame) (s : State) (h : n ≤ (byteAt f.payload i).toNat) : r.run f s = s.refuse .badValue := by
  cases c <;> cases hr
  case pinSet => exact pinSet_badField s hn h
  case noticeSet => exact noticeSet_badField s hn h
  case laneRetire => exact laneRetire_badField s hn h
  case groupPowerStandby => simp [groupPower, powerTarget_badField hn h]
  case groupPowerActive => simp [groupPower, powerTarget_badField hn h]
  case groupMark => exact groupMark_badField s hn h
  case busSet => exact busSet_badField s hn h
  case xpRead => exact xpRead_badField s hn h
  case quadStart => cases List.mem_singleton.mp hn; simp [Request.ofKind, quadStart, letterOf_eq_none h]
  case groupRead => cases List.mem_singleton.mp hn; simp [Request.ofKind, groupRead, letterOf_eq_none h]
  case busRead => cases List.mem_singleton.mp hn; simp [Request.ofKind, busRead, index16Of_eq_none h]
  case routeClear => cases List.mem_singleton.mp hn; simp [Request.ofKind, routeClear, index16Of_eq_none h]
  case lineDefine => cases List.mem_singleton.mp hn; simp [Request.ofKind, lineDefine, index16Of_eq_none h]
  case lineClear => cases List.mem_singleton.mp hn; simp [Request.ofKind, lineClear, index16Of_eq_none h]
  case lineRelease => cases List.mem_singleton.mp hn; simp [Request.ofKind, lineRelease, index16Of_eq_none h]
  case lineRead => cases List.mem_singleton.mp hn; simp [Request.ofKind, lineRead, index16Of_eq_none h]
  case cueRead => cases List.mem_singleton.mp hn; exact if_pos (.inr h)
  all_goals cases hn

/-- A request of a command's kind with an unfit payload belongs to the command: a GROUP POWER that names no target to either (log 16). -/
theorem belongsTo_of_asks {c : Instr} {kind : RequestKind} {s : State} {f : ReceivedFrame} {p : List Byte} (h : s.Asks f kind p)
    (hk : kindTaken c = some kind) (hp : kind = .groupPower → powerTarget p = none) : f.BelongsTo c := by
  obtain ⟨-, hkind, rfl⟩ := h
  have other (hg : kind = .groupPower) (g : GroupId) (standby : Bool) : f.payload ≠ [byteOfLetter g, byteOfBool standby] := by
    intro hx
    rw [powerTarget_eq_some.mpr hx] at hp
    cases hp hg
  refine .inr ⟨kind, hk, hkind, ?_, ?_⟩
  · rintro rfl g
    exact other (Option.some.inj hk.symm) g false
  · rintro rfl g
    exact other (Option.some.inj hk.symm) g true

/-- The executor's effect on a request that is refused BAD_VALUE for its payload. -/
theorem exec_unfit {c : Instr} {kind : RequestKind} {s : State} {f : ReceivedFrame} {p : List Byte} (h : s.Asks f kind p)
    (hc : c ∈ executorCommands) (hk : kindTaken c = some kind) (hp : kind = .groupPower → powerTarget p = none)
    (hrun : ∀ r, requestOf c = some r → r.run f s.taken = s.taken.refuse .badValue) :
    exec c s = .next (s.answered f .badValue []) := by
  obtain ⟨r, hr⟩ := requestOf_isSome hc
  exact exec_refused hr h.1 (belongsTo_of_asks h hk hp) (by decide) (hrun r hr)

/-- A row of the payload lengths names a command of the executor, its kind and the length of its payload. -/
abbrev LengthRow (x : Instr × RequestKind × Nat) : Prop :=
  x.1 ∈ executorCommands ∧ kindTaken x.1 = some x.2.1 ∧ payloadLength x.1 = some x.2.2 ∧ (x.2.1 = .groupPower → x.2.2 = 2)

/-- A row of the fields names a command of the executor, its kind, and one of its bounded fields. -/
abbrev FieldRow (x : Instr × RequestKind × Nat × Nat) : Prop :=
  x.1 ∈ executorCommands ∧ kindTaken x.1 = some x.2.1 ∧ x.2.2 ∈ fieldBounds x.1 ∧
    (x.2.1 = .groupPower → x.2.2 ∈ fieldBounds .groupPowerStandby)

/-- What holds of every row of a table holds of one. -/
theorem row_of_table {α : Type} {P : α → Prop} {x : α} {table : List α} (h : x ∈ table) (all : ∀ y ∈ table, P y) : P x :=
  all x h

/-- Settles O19: a payload of another length, or with a field out of range, is refused by the block that reads it; ERROR_REPLY answers by the frame's outcome. -/
theorem unfitFramesAreAnswered : Obligations.UnfitFramesAreAnswered := by
  refine ⟨fun s f p c kind length h hp hc => ?_, fun s f p c kind i bound h hb hc => ?_, fun s f hf => ?_⟩
  · have payload : f.payload = p := h.2.2
    obtain hc | ⟨rfl, rfl, rfl⟩ := hc
    · obtain ⟨hexec, hk, hn, hpower⟩ := row_of_table (P := LengthRow) hc (by decide)
      refine exec_unfit h hexec hk (fun hg => ?_) fun r hr => run_badLength hr hn f _ (payload ▸ hp)
      exact powerTarget_none_of_length (hpower hg ▸ hp)
    · refine exec_unfit h (by decide) rfl (fun hg => by cases hg) fun r hr => ?_
      cases hr
      simp [Request.ofKind, cuePost, cueOf_none_of_length (payload ▸ hp)]
  · have payload : f.payload = p := h.2.2
    obtain ⟨hexec, hk, hn, hpower⟩ := row_of_table (P := FieldRow) hc (by decide)
    refine exec_unfit h hexec hk (fun hg => powerTarget_badField (hpower hg) hb) fun r hr => run_badField hr hn f _ (payload ▸ hb)
  · have answers (st : Status) (payload : List Byte) (herr : f.isError = true)
        (hrun : errorAnswer f s.taken = { state := s.taken, status := st, payload := payload }) :
        exec .errorReply s = .next (s.answered f st payload) := by
      rw [show exec .errorReply s = .next (s.takeFrame ReceivedFrame.isError errorAnswer) from rfl, takeFrame_eq hf herr errorAnswer, hrun, taken_makeReply]
    refine ⟨fun ho => answers _ _ ?_ ?_, fun ho => answers _ _ ?_ ?_, fun ho => answers _ _ ?_ ?_, fun ho => answers _ _ ?_ ?_⟩
    all_goals simp [ReceivedFrame.isError, errorAnswer, ho, State.refuse]

end Sys2Proof.Machine
end

section
/-! PROOFS. What each event leaves alone: the lanes' events, the stages of a pass, the memory port's events, the link's events and the resets. -/

namespace Sys2Proof.Machine

/-! ### A cue without what an event alone can change -/

/-- A cue's record without its trigger and its two flags, which an event can change while the cue stays in the list (R84, R97, R99). -/
def Cue.core (c : Cue) : Cue := { c with trigger := .next, armed := false, deferred := false }

/-- The same cues stand in the list in the same order, but for their triggers and flags. -/
abbrev State.SameCores (t s : State) : Prop := t.cues.map Cue.core = s.cues.map Cue.core

/-- Whatever is read off a cue's record without its trigger and flags is the same in both lists. -/
theorem map_eq_of_cores {α : Type} {t s : State} (h : t.SameCores s) (f : Cue → α) (hf : ∀ c, f c.core = f c) :
    t.cues.map f = s.cues.map f := by
  have lift (cs : List Cue) : cs.map f = (cs.map Cue.core).map f := by
    rw [List.map_map]
    exact List.map_congr_left fun c _ => (hf c).symm
  rw [lift, lift s.cues, h]

/-- The cores after a change of every cue that leaves its core alone. -/
theorem map_core_map (cs : List Cue) {f : Cue → Cue} (hf : ∀ c, (f c).core = c.core) :
    (cs.map f).map Cue.core = cs.map Cue.core := by
  rw [List.map_map]
  exact List.map_congr_left fun c _ => hf c

@[simp] theorem convert_core (x : Byte) (inFlight : GroupId → Bool) (c : Cue) : (c.convert x inFlight).core = c.core := by
  unfold Cue.convert; split <;> rfl

variable (s : State)

@[simp] theorem armCues_cores (k : PinId) : (s.armCues k).cues.map Cue.core = s.cues.map Cue.core :=
  map_core_map _ fun c => by split <;> rfl

@[simp] theorem endPass_cores (g : GroupId) : (s.endPass g).cues.map Cue.core = s.cues.map Cue.core :=
  map_core_map _ fun c => by split <;> rfl

@[simp] theorem finishPass_cores (g : GroupId) : (s.finishPass g).cues.map Cue.core = s.cues.map Cue.core := by
  unfold State.finishPass; repeat' split
  all_goals simp

@[simp] theorem withdrawOf_cores (g : GroupId) (b : BusId) : (s.withdrawOf g b).cues.map Cue.core = s.cues.map Cue.core := by
  unfold State.withdrawOf; repeat' split
  all_goals simp

@[simp] theorem withdraw_cores (b : BusId) : (s.withdraw b).cues.map Cue.core = s.cues.map Cue.core := by
  simp [State.withdraw]

@[simp] theorem restartLine_cores (b : BusId) (l : Line) : (s.restartLine b l).cues.map Cue.core = s.cues.map Cue.core := by
  unfold State.restartLine
  cases l.state <;> simp

@[simp] theorem dropLine_cores (b : BusId) : (s.dropLine b).cues.map Cue.core = s.cues.map Cue.core := by
  simp [State.dropLine]

@[simp] theorem judgeEdge_cores (k : PinId) (high : Bool) : (s.judgeEdge k high).cues.map Cue.core = s.cues.map Cue.core := by
  unfold State.judgeEdge; repeat' split
  all_goals simp

@[simp] theorem sense_cores (k : PinId) : (s.sense k).cues.map Cue.core = s.cues.map Cue.core := by
  simp only [State.sense]; split <;> simp

variable {s} {t : State}

/-! ### The lanes' events (Chapters 1 and 2) -/

/-- What an event of the lanes leaves alone. -/
structure State.KeepsBeyondLanes (t s : State) : Prop where
  pending : t.pending = s.pending
  resetHeld : t.resetHeld = s.resetHeld
  straps : t.straps = s.straps
  quads : t.lane.quads = s.lane.quads
  buses : t.mix.buses = s.mix.buses
  xp : t.mix.xp = s.mix.xp
  routes : t.mix.routes = s.mix.routes
  cues : t.cues = s.cues
  mem : t.mem = s.mem
  requests : t.link.requests = s.link.requests
  replies : t.link.replies = s.link.replies
  pins : t.pins = s.pins
  free : t.free = s.free

theorem wordSelectEdge_keeps {g : GroupId} {high : Bool} {n : Nat} (h : exec (.wordSelectEdge g high n) s = .next t) :
    t.KeepsBeyondLanes s := by
  simp only [exec, execWordSelectEdge, Host.Outcome.next.injEq] at h
  repeat' split at h
  all_goals
    subst h
    constructor <;> simp

theorem wordComplete_keeps {c : Channel} {bits : BitVec 32} (h : exec (.wordComplete c bits) s = .next t) :
    t.KeepsBeyondLanes s := by
  simp only [exec, execWordComplete, Host.Outcome.next.injEq] at h
  repeat' split at h
  all_goals
    subst h
    constructor <;> simp

theorem lossTimerExpiry_keeps {g : GroupId} (h : exec (.lossTimerExpiry g) s = .next t) : t.KeepsBeyondLanes s := by
  simp only [exec, execLossTimerExpiry, Host.Outcome.next.injEq] at h
  repeat' split at h
  all_goals
    subst h
    constructor <;> simp

theorem frameStart_keeps {g : GroupId} (h : exec (.frameStart g) s = .next t) : t.KeepsBeyondLanes s := by
  simp only [exec, execFrameStart, Host.Outcome.next.injEq] at h
  repeat' split at h
  all_goals
    subst h
    constructor <;> simp

/-! ### The stages of a pass (Chapter 4) -/

/-- What a stage of a pass that works on the mix engine leaves alone. -/
structure State.KeepsBeyondMix (t s : State) : Prop where
  pending : t.pending = s.pending
  resetHeld : t.resetHeld = s.resetHeld
  straps : t.straps = s.straps
  lane : t.lane = s.lane
  word : t.word = s.word
  readQ : t.mem.readQ = s.mem.readQ
  writeQ : t.mem.writeQ = s.mem.writeQ
  access : t.mem.access = s.mem.access
  dram : t.mem.dram = s.mem.dram
  requests : t.link.requests = s.link.requests
  replies : t.link.replies = s.link.replies
  pins : t.pins = s.pins
  free : t.free = s.free

/-- The effect of taking the due cues, one after another, leaves alone what taking each does. -/
theorem takeCues_keeps (g : GroupId) (n : FrameNo) (tags : List Byte) (s : State) :
    (tags.foldl (State.takeCue g n) s).KeepsBeyondMix s := by
  constructor
  · exact foldl_proj _ State.pending (fun v x => by simp) _ _
  · exact foldl_proj _ State.resetHeld (fun v x => by simp) _ _
  · exact foldl_proj _ State.straps (fun v x => by simp) _ _
  · exact foldl_proj _ State.lane (fun v x => by simp) _ _
  · exact foldl_proj _ State.word (fun v x => by simp) _ _
  · exact foldl_proj _ (fun v : State => v.mem.readQ) (fun v x => by simp) _ _
  · exact foldl_proj _ (fun v : State => v.mem.writeQ) (fun v x => by simp) _ _
  · exact foldl_proj _ (fun v : State => v.mem.access) (fun v x => by simp) _ _
  · exact foldl_proj _ (fun v : State => v.mem.dram) (fun v x => by simp) _ _
  · exact foldl_proj _ (fun v : State => v.link.requests) (fun v x => by simp) _ _
  · exact foldl_proj _ (fun v : State => v.link.replies) (fun v x => by simp) _ _
  · exact foldl_proj _ State.pins (fun v x => by simp) _ _
  · exact foldl_proj _ State.free (fun v x => by simp) _ _

theorem takeCues_passes (g : GroupId) (n : FrameNo) (tags : List Byte) (s : State) :
    (tags.foldl (State.takeCue g n) s).mix.passes = s.mix.passes :=
  foldl_proj _ (fun v : State => v.mix.passes) (fun v x => by simp) _ _

theorem State.KeepsBeyondMix.refl (s : State) : s.KeepsBeyondMix s := by constructor <;> rfl

theorem cueStart_keeps {g : GroupId} (h : exec (.cueStart g) s = .next t) : t.KeepsBeyondMix s := by
  simp only [exec, execCueStart, Host.Outcome.next.injEq] at h
  split at h
  case h_1 => exact h ▸ .refl s
  case h_2 p _ =>
    have k := takeCues_keeps g p.frame (s.dueTags g p.frame) s
    split at h
    · subst h
      constructor <;> simp [k.pending, k.resetHeld, k.straps, k.lane, k.word, k.readQ, k.writeQ, k.access, k.dram, k.requests,
        k.replies, k.pins, k.free]
    · subst h
      constructor <;> simp [k.pending, k.resetHeld, k.straps, k.lane, k.word, k.readQ, k.writeQ, k.access, k.dram, k.requests,
        k.replies, k.pins, k.free]

/-- Ramps that end one after another leave alone what the end of each does. -/
theorem endRamps_frame (ended : List Entry) (s : State) :
    (ended.foldl State.endRamp s).pending = s.pending ∧ (ended.foldl State.endRamp s).resetHeld = s.resetHeld ∧
    (ended.foldl State.endRamp s).straps = s.straps ∧ (ended.foldl State.endRamp s).lane = s.lane ∧
    (ended.foldl State.endRamp s).word = s.word ∧ (ended.foldl State.endRamp s).mix.xp = s.mix.xp ∧
    (ended.foldl State.endRamp s).mix.routes = s.mix.routes ∧ (ended.foldl State.endRamp s).mix.passes = s.mix.passes ∧
    (ended.foldl State.endRamp s).mem = s.mem ∧ (ended.foldl State.endRamp s).link.requests = s.link.requests ∧
    (ended.foldl State.endRamp s).link.replies = s.link.replies ∧ (ended.foldl State.endRamp s).faults = s.faults ∧
    (ended.foldl State.endRamp s).pins = s.pins ∧ (ended.foldl State.endRamp s).free = s.free :=
  ⟨foldl_proj _ State.pending (fun v x => by simp) _ _, foldl_proj _ State.resetHeld (fun v x => by simp) _ _,
    foldl_proj _ State.straps (fun v x => by simp) _ _, foldl_proj _ State.lane (fun v x => by simp) _ _,
    foldl_proj _ State.word (fun v x => by simp) _ _, foldl_proj _ (fun v : State => v.mix.xp) (fun v x => by simp) _ _,
    foldl_proj _ (fun v : State => v.mix.routes) (fun v x => by simp) _ _,
    foldl_proj _ (fun v : State => v.mix.passes) (fun v x => by simp) _ _,
    foldl_proj _ State.mem (fun v x => by simp) _ _, foldl_proj _ (fun v : State => v.link.requests) (fun v x => by simp) _ _,
    foldl_proj _ (fun v : State => v.link.replies) (fun v x => by simp) _ _,
    foldl_proj _ State.faults (fun v x => by simp) _ _, foldl_proj _ State.pins (fun v x => by simp) _ _,
    foldl_proj _ State.free (fun v x => by simp) _ _⟩

theorem gainStep_keeps {g : GroupId} (h : exec (.gainStep g) s = .next t) : t.KeepsBeyondMix s := by
  simp only [exec, execGainStep, Host.Outcome.next.injEq] at h
  split at h
  case h_1 => exact h ▸ .refl s
  case h_2 =>
    subst h
    constructor <;> simp [endRamps_frame]

/-- Buses that clip one after another leave alone what the clipping of each does. -/
theorem clipBuses_frame (is : List PassBus) (s : State) :
    is.foldl (fun v i => v.clipBus i.bus) s = { s with
      mix := { s.mix with buses := (is.foldl (fun v i => v.clipBus i.bus) s).mix.buses }
      link := (is.foldl (fun v i => v.clipBus i.bus) s).link } ∧
    (is.foldl (fun v i => v.clipBus i.bus) s).link.requests = s.link.requests ∧
    (is.foldl (fun v i => v.clipBus i.bus) s).link.replies = s.link.replies := by
  induction is generalizing s with
  | nil => exact ⟨rfl, rfl, rfl⟩
  | cons i rest ih =>
    have one : s.clipBus i.bus = { s with mix := { s.mix with buses := (s.clipBus i.bus).mix.buses }, link := (s.clipBus i.bus).link } := by
      unfold State.clipBus; split <;> rfl
    obtain ⟨h1, h2, h3⟩ := ih (s.clipBus i.bus)
    simp only [List.foldl_cons, h2, h3, clipBus_frame, and_true]
    rw [h1]
    rw [one]

theorem accumulate_keeps {g : GroupId} (h : exec (.accumulate g) s = .next t) : t.KeepsBeyondMix s ∧ t.mem = s.mem ∧
    t.mix.xp = s.mix.xp ∧ t.mix.routes = s.mix.routes ∧ t.cues = s.cues ∧ t.faults = s.faults := by
  simp only [exec, execAccumulate, Host.Outcome.next.injEq] at h
  split at h
  case h_1 => exact h ▸ ⟨.refl s, rfl, rfl, rfl, rfl, rfl⟩
  case h_2 p _ =>
    obtain ⟨h1, h2, h3⟩ := clipBuses_frame (p.buses.filter fun i => clips (i.rounded p.samples)) s
    subst h
    refine ⟨?_, ?_, ?_, ?_, ?_, ?_⟩
    · constructor
      case requests => simp [h2]
      case replies => simp [h3]
      all_goals simp only [modifyPass_frame]; rw [h1]
    all_goals simp only [modifyPass_frame]; rw [h1]

/-! ### The memory port's events (Chapter 7 and the delay exchange) -/

/-- What the delay exchange and the memory port's events leave alone. -/
structure State.KeepsBeyondMemory (t s : State) : Prop where
  pending : t.pending = s.pending
  resetHeld : t.resetHeld = s.resetHeld
  straps : t.straps = s.straps
  lane : t.lane = s.lane
  buses : t.mix.buses = s.mix.buses
  xp : t.mix.xp = s.mix.xp
  routes : t.mix.routes = s.mix.routes
  cores : t.SameCores s
  requests : t.link.requests = s.link.requests
  replies : t.link.replies = s.link.replies
  faults : t.faults = s.faults
  pins : t.pins = s.pins
  free : t.free = s.free

theorem exchangeVisit_keeps {g : GroupId} (h : exec (.exchangeVisit g) s = .next t) :
    t.KeepsBeyondMemory s ∧ t.mem.dram = s.mem.dram := by
  simp only [exec, execExchangeVisit, Host.Outcome.next.injEq] at h
  repeat' split at h
  all_goals
    subst h
    refine ⟨?_, by simp⟩
    constructor <;> simp [State.SameCores]

theorem passReadOffer_keeps {g : GroupId} (h : exec (.passReadOffer g) s = .next t) :
    t.KeepsBeyondMemory s ∧ t.mem.dram = s.mem.dram := by
  simp only [exec, execPassReadOffer, Host.Outcome.next.injEq] at h
  split at h
  all_goals
    subst h
    refine ⟨?_, by simp⟩
    constructor <;> simp [State.SameCores]

theorem passWriteOffer_keeps {g : GroupId} (h : exec (.passWriteOffer g) s = .next t) :
    t.KeepsBeyondMemory s ∧ t.mem.dram = s.mem.dram := by
  simp only [exec, execPassWriteOffer, Host.Outcome.next.injEq] at h
  split at h
  all_goals
    subst h
    refine ⟨?_, by simp⟩
    constructor <;> simp [State.SameCores]

theorem dramReadComplete_keeps (h : exec .dramReadComplete s = .next t) :
    t.KeepsBeyondMemory s ∧ t.mem.dram = s.mem.dram := by
  simp only [exec, execDramReadComplete] at h
  split at h
  case h_1 a destination _ _ =>
    split at h
    case isTrue => cases h
    case isFalse =>
      cases destination with
      | none =>
        cases h
        refine ⟨?_, by simp⟩
        constructor <;> simp [State.SameCores]
      | some d =>
        cases h
        refine ⟨?_, by simp⟩
        constructor <;> simp [State.SameCores]
  case h_2 =>
    cases h
    refine ⟨?_, rfl⟩
    constructor <;> rfl

theorem dramWriteComplete_keeps (h : exec .dramWriteComplete s = .next t) : t.KeepsBeyondMemory s ∧ t.mix = s.mix ∧
    (t.mem.dram = s.mem.dram ∨ ∃ a v, t.mem.dram = s.mem.dram.write a v) := by
  simp only [exec, execDramWriteComplete] at h
  split at h
  case h_1 a v _ _ =>
    split at h
    · cases h
    · cases h
      refine ⟨?_, by simp, .inr ⟨a, v, by simp⟩⟩
      constructor <;> simp [State.SameCores]
  case h_2 =>
    cases h
    exact ⟨by constructor <;> rfl, rfl, .inl rfl⟩

theorem refreshDue_keeps (h : exec .refreshDue s = .next t) :
    t.KeepsBeyondMemory s ∧ t.mix = s.mix ∧ t.mem.dram = s.mem.dram := by
  simp only [exec, execRefreshDue, Host.Outcome.next.injEq] at h
  split at h
  all_goals
    subst h
    refine ⟨?_, by simp⟩
    constructor <;> simp [State.SameCores]

theorem refreshComplete_keeps (h : exec .refreshComplete s = .next t) :
    t.KeepsBeyondMemory s ∧ t.mix = s.mix ∧ t.mem.dram = s.mem.dram := by
  simp only [exec, execRefreshComplete, Host.Outcome.next.injEq] at h
  split at h
  all_goals
    subst h
    refine ⟨?_, by simp⟩
    constructor <;> simp [State.SameCores]

theorem clearWrite_keeps (h : exec .clearWrite s = .next t) :
    t.KeepsBeyondMemory s ∧ t.mix = s.mix ∧ t.mem.dram = s.mem.dram := by
  simp only [exec, execClearWrite, Host.Outcome.next.injEq] at h
  repeat' split at h
  all_goals
    subst h
    refine ⟨?_, by simp⟩
    constructor <;> simp [State.SameCores]

/-! ### The pins, the link and the resets -/

/-- PIN_EDGE touches the pins, the notices and the armed flags alone (R168). -/
theorem pinEdge_keeps {k : PinId} {change : PinChange} (h : exec (.pinEdge k change) s = .next t) :
    t.pending = s.pending ∧ t.resetHeld = s.resetHeld ∧ t.straps = s.straps ∧ t.lane = s.lane ∧ t.word = s.word ∧
    t.mix = s.mix ∧ t.SameCores s ∧ t.mem = s.mem ∧ t.link.requests = s.link.requests ∧ t.link.replies = s.link.replies ∧
    t.faults = s.faults ∧ t.free = s.free := by
  simp only [exec, execPinEdge, Host.Outcome.next.injEq] at h
  split at h
  all_goals
    subst h
    simp [State.SameCores]

/-- An event of the link touches the link alone, and its request queue stays within its four places (R149, R152). -/
theorem transferBegin_link {x : TransferStart} (h : exec (.transferBegin x) s = .next t) :
    ∃ l, t = { s with link := l } ∧ l.requests = s.link.requests ∧ l.replies = s.link.replies := by
  simp only [exec, execTransferBegin, Host.Outcome.next.injEq] at h
  repeat' split at h
  all_goals
    subst h
    exact ⟨_, rfl, rfl, rfl⟩

theorem twoWireWriteAddress_link {a : BitVec 7} (h : exec (.twoWireWriteAddress a) s = .next t) :
    ∃ l, t = { s with link := l } ∧ l.requests = s.link.requests ∧ l.replies = s.link.replies := by
  simp only [exec, execTwoWireWriteAddress, Host.Outcome.next.injEq] at h
  repeat' split at h
  all_goals
    subst h
    exact ⟨_, rfl, rfl, rfl⟩

theorem transferEnd_link {bs : List Byte} {n : Nat} (h : exec (.transferEnd bs n) s = .next t) :
    ∃ l, t = { s with link := l } ∧ l.replies = s.link.replies ∧
      (l.requests = s.link.requests ∨ s.link.requests.length < 4 ∧ ∃ f, l.requests = s.link.requests ++ [f]) := by
  simp only [exec, execTransferEnd, Host.Outcome.next.injEq] at h
  split at h
  case h_1 => exact h ▸ ⟨_, rfl, rfl, .inl rfl⟩
  case h_2 =>
    subst h
    unfold State.receive
    split
    case isTrue => exact ⟨_, rfl, rfl, .inl rfl⟩
    case isFalse =>
      split
      case h_1 => exact ⟨_, rfl, rfl, .inl rfl⟩
      case h_2 f _ =>
        unfold State.enterRequest
        split
        case isTrue room => exact ⟨_, rfl, rfl, .inr ⟨of_decide_eq_true room, f, rfl⟩⟩
        case isFalse =>
          split
          · exact ⟨_, rfl, rfl, .inl rfl⟩
          · exact ⟨_, rfl, rfl, .inl rfl⟩

theorem outgoingFrameComplete_link (h : exec .outgoingFrameComplete s = .next t) :
    ∃ l, t = { s with link := l } ∧ l.requests = s.link.requests ∧
      (l.replies = s.link.replies ∨ l.replies = s.link.replies.tail) := by
  simp only [exec, execOutgoingFrameComplete, Host.Outcome.next.injEq] at h
  split at h
  case h_1 => exact h ▸ ⟨_, rfl, rfl, .inl rfl⟩
  case h_2 x _ =>
    split at h
    case h_1 => exact h ▸ ⟨_, rfl, rfl, .inl rfl⟩
    case h_2 o _ =>
      split at h
      case isTrue => exact h ▸ ⟨_, rfl, rfl, .inl rfl⟩
      case isFalse =>
        subst h
        unfold State.retireFrame
        split
        · exact ⟨_, rfl, rfl, .inr rfl⟩
        · split
          · exact ⟨_, rfl, rfl, .inl rfl⟩
          · exact ⟨_, rfl, rfl, .inl rfl⟩

theorem exec_hardwareReset (s : State) : exec .hardwareReset s = .next { s with
    resetHeld := true, lane := LaneInterface.reset, word := WordPath.reset, mix := MixEngine.reset, cues := [],
    mem := MemoryPort.reset (s.mem.abandon s.free), link := Link.reset, faults := [], pins := s.resetPins,
    free := s.mem.abandonCount s.free } := rfl

/-- A release outside a hardware reset is no event (R171). -/
theorem resetRelease_cases {x : Straps} (h : exec (.resetRelease x) s = .next t) :
    t = s ∨ s.resetHeld = true ∧ t = { s with resetHeld := false, straps := x } := by
  simp only [exec, execResetRelease, Host.Outcome.next.injEq] at h
  split at h
  case isTrue held => exact .inr ⟨held, h.symm⟩
  case isFalse => exact .inl h.symm

/-! ### The executor -/

/-- A command of the executor changes nothing, or takes a frame and replies after the block's answer; a PART_RESET that is accepted resets every block. -/
theorem exec_request {c : Instr} {r : Request} (hr : requestOf c = some r) (h : exec c s = .next t) :
    t = s ∨ ∃ f, s.Takes f ∧
      (t = (r.run f s.taken).state.makeReply f (r.run f s.taken).status (r.run f s.taken).payload ∨
        c = .partReset ∧ t = (s.answered f .ok []).softReset) := by
  by_cases hreset : c = .partReset
  case neg =>
    rw [exec_of_requestOf hr hreset, Host.Outcome.next.injEq] at h
    obtain hs | ⟨f, hf, -, ht⟩ := takeFrame_cases s r.takes r.run
    · exact .inl (h.symm.trans hs)
    · exact .inr ⟨f, hf, .inl (h.symm.trans ht)⟩
  case pos =>
    subst hreset
    cases hr
    rw [exec_partReset, Host.Outcome.next.injEq] at h
    split at h
    case isTrue accepted =>
      obtain ⟨f, hf, kind, hp⟩ := resetAccepted_iff.mp accepted
      refine .inr ⟨f, hf, .inr ⟨rfl, ?_⟩⟩
      rw [← h, takeRequest_reported (f := f) (p := []) ⟨hf, kind, hp⟩ (out := []) rfl]
    case isFalse =>
      obtain hs | ⟨f, hf, -, ht⟩ := takeFrame_cases s (ReceivedFrame.isKind .partReset) (fun f t => partResetRequest f.payload t)
      · exact .inl (h.symm.trans hs)
      · exact .inr ⟨f, hf, .inl (h.symm.trans ht)⟩

end Sys2Proof.Machine
end

section
/-! PROOFS. The effects a request can have, invariants of the step, and the DRAM's words (R126, R141). -/

namespace Sys2Proof.Machine

/-! ### The effects of a request -/

/-- The effects a request's block can have on the state; a refused request and one that reports have none. -/
inductive RequestEffect (s : State) : State → Prop
  | nothing : RequestEffect s s
  | pins (pins : Vector GeneralPin 4) : RequestEffect s { s with pins := pins }
  | notices (gone : List NoticeClass) (mask : BitVec 7) (two : Bool) (pins : Vector GeneralPin 4) : RequestEffect s
      { s with link := { gone.foldl Link.dropNotice s.link with enable := mask, twoLine := two }, pins := pins }
  | faults {top : FaultRecord} {rest : List FaultRecord} (l : Link) (h : s.faults = top :: rest) :
      RequestEffect s { s with faults := rest, link := l }
  | plan {p : List Byte} {q : QuadId} {plan : Plan} (hp : planOf p = some (q, plan)) (h : (s.quad q).startedPlan = none) :
      RequestEffect s (s.setQuad q (.planned plan))
  | start {q : QuadId} {plan : Plan} (hq : s.quad q = .planned plan) (hj : plan.joined = false) :
      RequestEffect s ((s.startQuad q plan).startGroup q)
  | startJoined {q : QuadId} {plan : Plan} (hq : s.quad q = .planned plan) (hj : plan.joined = true)
      (hA : (s.quad .A).startedPlan.isSome = true) : RequestEffect s (s.startQuad q plan).startJoined
  | retireInputs {q : QuadId} {i : LanePos} {plan : Plan} {l : LanePlan} (hq : s.quad q = .started plan)
      (hl : plan.lanes[i] = some l) (hd : l.direction = .input) :
      RequestEffect s ((s.setQuad q (.started (plan.without i))).retireInputs (laneChannel q i l))
  | retireOutputs {q : QuadId} {i : LanePos} {plan : Plan} {l : LanePlan} (hq : s.quad q = .started plan)
      (hl : plan.lanes[i] = some l) (hd : l.direction = .output) :
      RequestEffect s ((s.setQuad q (.started (plan.without i))).retireOutputs (laneChannel q i l))
  | acquire {g : GroupId} (h : (s.group g).state = .standby) : RequestEffect s (s.acquire g)
  | standby {g : GroupId} (h : (s.group g).state ≠ .off) : RequestEffect s (s.haltGroup g .standby)
  | mark (g : GroupId) (mark : FrameNo) (mode : MarkMode) :
      RequestEffect s (s.setGroup g { s.group g with mark := mark, markMode := mode, markOut := false })
  | settings (b : BusId) (group : Option GroupId) (rounding : Rounding) (overflow : Overflow) :
      RequestEffect s (s.modifyBus b fun r => { r with group := group, rounding := rounding, overflow := overflow })
  | clips (mask : BitVec 16) : RequestEffect s (s.clearClips mask)
  | free {c : Channel} (h : s.route c ≠ .absent) : RequestEffect s (s.setRoute c .free)
  | enter {p : List Byte} {c : Cue} (hp : cueOf p = some c) (hnew : s.findCue c.tag = none) (hroom : s.cues.length < 24)
      (hpool : s.poolUsed + c.edits.length ≤ 128) : RequestEffect s (s.enterCue c)
  | withdraw (tags : List Byte) : RequestEffect s (s.withdrawCues tags)
  | define {b : BusId} {base length : Nat} (hb : s.line b = none) (hlen : length ∈ lineLengths)
      (hfits : base + length ≤ s.dramWords) (hapart : ∀ c l, s.line c = some l → overlaps base length l = false) :
      RequestEffect s (s.addLine b base length)
  | restart {b : BusId} {l : Line} (h : s.line b = some l) : RequestEffect s (s.restartLine b l)
  | release (b : BusId) : RequestEffect s (s.dropLine b)

theorem RequestEffect.of_state {s u : State} (h : u = s) : RequestEffect s u := h ▸ .nothing

/-- Every answer has one of the effects. -/
theorem run_effect {c : Instr} {r : Request} (h : requestOf c = some r) (f : ReceivedFrame) (s : State) :
    RequestEffect s (r.run f s).state := by
  cases c <;> cases h
  case partIdentify => exact .of_state (identify_state _ _)
  case partReset => exact .of_state (partResetRequest_state _ _)
  case pinRead => exact .of_state (pinRead_state _ _)
  case groupRead => exact .of_state (groupRead_state _ _)
  case busRead => exact .of_state (busRead_state _ _)
  case xpRead => exact .of_state (xpRead_state _ _)
  case routeRead => exact .of_state (routeRead_state _ _)
  case cueRead => exact .of_state (cueRead_state _ _)
  case lineRead => exact .of_state (lineRead_state _ _)
  case errorReply => exact .of_state (errorAnswer_state _ _)
  case pinSet =>
    obtain h | ⟨-, pins, h⟩ := pinSet_cases f.payload s
    · exact .of_state h
    · exact h ▸ .pins pins
  case noticeSet =>
    obtain h | ⟨-, gone, mask, two, pins, h⟩ := noticeSet_cases f.payload s
    · exact .of_state h
    · exact h ▸ .notices gone mask two pins
  case faultRead =>
    obtain h | ⟨-, top, rest, l, hf, -, h⟩ := faultRead_cases f.payload s
    · exact .of_state h
    · exact h ▸ .faults l hf
  case quadPlan =>
    obtain h | ⟨-, q, plan, hp, hq, h⟩ := quadPlan_cases f.payload s
    · exact .of_state h
    · exact h ▸ .plan hp hq
  case quadStart =>
    obtain h | ⟨-, q, plan, hq, ⟨hj, hA, h⟩ | ⟨hj, h⟩⟩ := quadStart_cases f.payload s
    · exact .of_state h
    · exact h ▸ .startJoined hq hj hA
    · exact h ▸ .start hq hj
  case laneRetire =>
    obtain h | ⟨-, q, i, plan, l, hq, hl, ⟨hd, h⟩ | ⟨hd, h⟩⟩ := laneRetire_cases f.payload s
    · exact .of_state h
    · exact h ▸ .retireInputs hq hl hd
    · exact h ▸ .retireOutputs hq hl hd
  case groupPowerStandby =>
    obtain h | ⟨-, g, ⟨hg, h⟩ | ⟨hg, h⟩⟩ := groupPower_cases f.payload s
    · exact .of_state h
    · exact h ▸ .acquire hg
    · exact h ▸ .standby hg
  case groupPowerActive =>
    obtain h | ⟨-, g, ⟨hg, h⟩ | ⟨hg, h⟩⟩ := groupPower_cases f.payload s
    · exact .of_state h
    · exact h ▸ .acquire hg
    · exact h ▸ .standby hg
  case groupMark =>
    obtain h | ⟨-, g, mark, mode, h⟩ := groupMark_cases f.payload s
    · exact .of_state h
    · exact h ▸ .mark g mark mode
  case busSet =>
    obtain h | ⟨-, b, group, rounding, overflow, h⟩ := busSet_cases f.payload s
    · exact .of_state h
    · exact h ▸ .settings b group rounding overflow
  case clipClear =>
    obtain h | ⟨-, mask, h⟩ := clipClear_cases f.payload s
    · exact .of_state h
    · exact h ▸ .clips mask
  case routeClear =>
    obtain h | ⟨-, d, hd, h⟩ := routeClear_cases f.payload s
    · exact .of_state h
    · exact h ▸ .free hd
  case cuePost =>
    obtain h | ⟨-, d, hd, hnew, hroom, hpool, h⟩ := cuePost_cases f.payload s
    · exact .of_state h
    · exact h ▸ .enter hd hnew hroom hpool
  case cueCancel =>
    obtain h | ⟨-, tags, h⟩ := cueCancel_cases f.payload s
    · exact .of_state h
    · exact h ▸ .withdraw tags
  case lineDefine =>
    obtain h | ⟨-, b, base, length, hb, hlen, hfits, hapart, h⟩ := lineDefine_cases f.payload s
    · exact .of_state h
    · exact h ▸ .define hb hlen hfits hapart
  case lineClear =>
    obtain h | ⟨-, b, l, hl, h⟩ := lineClear_cases f.payload s
    · exact .of_state h
    · exact h ▸ .restart hl
  case lineRelease =>
    obtain h | ⟨-, b, h⟩ := lineRelease_cases f.payload s
    · exact .of_state h
    · exact h ▸ .release b

/-! ### Invariants -/

/-- A property that no change of the link alone can break. -/
abbrev LinkFree (P : State → Prop) : Prop := ∀ (s : State) (l : Link), P s → P { s with link := l }

/-- A property that looks neither at the link nor breaks by a request's effect or a soft reset is kept by the executor's commands. -/
theorem request_preserves {P : State → Prop} (hlink : LinkFree P) (heffect : ∀ s u, RequestEffect s u → P s → P u)
    (hsoft : ∀ s, P s → P s.softReset) {c : Instr} {r : Request} (hr : requestOf c = some r) {s t : State}
    (h : exec c s = .next t) (hs : P s) : P t := by
  obtain rfl | ⟨f, -, rfl | ⟨-, rfl⟩⟩ := exec_request hr h
  · exact hs
  · exact hlink _ _ (heffect _ _ (run_effect hr f s.taken) (hlink s _ hs))
  · exact hsoft _ (hlink s _ hs)

/-- A property that does not look at the queue of commands is kept by the step when every command keeps it. -/
theorem step_preserves {P : State → Prop} (hpending : ∀ s l, P s → P { s with pending := l })
    (hexec : ∀ c s t, exec c s = .next t → P s → P t) {s t : State} (h : step s = .next t) (hs : P s) : P t := by
  unfold step at h
  split at h
  case h_1 =>
    cases h
    exact hs
  case h_2 c rest _ => exact hexec c _ t h (hpending s rest hs)

/-! ### Which commands stop (O2) -/

/-- The one stop: a DRAM access that completes beyond the DRAM (R126; log 11). -/
theorem dramComplete_stops (s : State) {c : Instr} (hc : c = .dramReadComplete ∨ c = .dramWriteComplete) :
    (∃ t, exec c s = .next t) ∨
    (∃ a, s.dramWords ≤ a ∧ exec c s = .fault (.noSuchWord a) ∧
      ((c = .dramReadComplete ∧ ∃ d f, s.mem.access = some (.read a d f)) ∨
        (c = .dramWriteComplete ∧ ∃ v f, s.mem.access = some (.write a v f)))) := by
  obtain rfl | rfl := hc
  · rw [show exec .dramReadComplete s = execDramReadComplete s from rfl, execDramReadComplete]
    split
    case h_1 a d fast hacc =>
      split
      case isTrue beyond => exact .inr ⟨a, beyond, rfl, .inl ⟨rfl, d, fast, hacc⟩⟩
      case isFalse =>
        cases d with
        | none => exact .inl ⟨_, rfl⟩
        | some d => exact .inl ⟨_, rfl⟩
    case h_2 => exact .inl ⟨_, rfl⟩
  · rw [show exec .dramWriteComplete s = execDramWriteComplete s from rfl, execDramWriteComplete]
    split
    case h_1 a v fast hacc =>
      split
      case isTrue beyond => exact .inr ⟨a, beyond, rfl, .inr ⟨rfl, v, fast, hacc⟩⟩
      case isFalse => exact .inl ⟨_, rfl⟩
    case h_2 => exact .inl ⟨_, rfl⟩

/-- No command touches the queue of waiting commands. -/
theorem exec_pending {c : Instr} {s t : State} (h : exec c s = .next t) : t.pending = s.pending := by
  by_cases hr : ∃ r, requestOf c = some r
  case pos =>
    obtain ⟨r, hr⟩ := hr
    obtain rfl | ⟨f, -, rfl | ⟨-, rfl⟩⟩ := exec_request hr h
    · rfl
    · exact (run_orderly hr f s.taken).1.1
    · rfl
  case neg =>
    cases c
    case transferBegin => obtain ⟨l, rfl, -⟩ := transferBegin_link h; rfl
    case twoWireWriteAddress => obtain ⟨l, rfl, -⟩ := twoWireWriteAddress_link h; rfl
    case transferEnd => obtain ⟨l, rfl, -⟩ := transferEnd_link h; rfl
    case outgoingFrameComplete => obtain ⟨l, rfl, -⟩ := outgoingFrameComplete_link h; rfl
    case hardwareReset => cases h; rfl
    case resetRelease => obtain rfl | ⟨-, rfl⟩ := resetRelease_cases h <;> rfl
    case wordSelectEdge => exact (wordSelectEdge_keeps h).pending
    case wordComplete => exact (wordComplete_keeps h).pending
    case lossTimerExpiry => exact (lossTimerExpiry_keeps h).pending
    case frameStart => exact (frameStart_keeps h).pending
    case cueStart => exact (cueStart_keeps h).pending
    case gainStep => exact (gainStep_keeps h).pending
    case accumulate => exact (accumulate_keeps h).1.pending
    case exchangeVisit => exact (exchangeVisit_keeps h).1.pending
    case passReadOffer => exact (passReadOffer_keeps h).1.pending
    case passWriteOffer => exact (passWriteOffer_keeps h).1.pending
    case dramReadComplete => exact (dramReadComplete_keeps h).1.pending
    case dramWriteComplete => exact (dramWriteComplete_keeps h).1.pending
    case refreshDue => exact (refreshDue_keeps h).1.pending
    case refreshComplete => exact (refreshComplete_keeps h).1.pending
    case clearWrite => exact (clearWrite_keeps h).1.pending
    case pinEdge => exact (pinEdge_keeps h).1
    all_goals exact absurd ⟨_, rfl⟩ hr

/-- Settles O2: only the two completions have a stop, and every command's effect leaves the queue of commands. -/
theorem onlyAMissingWordStops : Obligations.OnlyAMissingWordStops := by
  refine ⟨fun c s => ?_, fun c s t h => exec_pending h⟩
  by_cases hc : c = .dramReadComplete ∨ c = .dramWriteComplete
  · exact dramComplete_stops s hc
  · obtain ⟨hread, hwrite⟩ := not_or.mp hc
    left
    cases c
    case dramReadComplete => exact absurd rfl hread
    case dramWriteComplete => exact absurd rfl hwrite
    all_goals exact ⟨_, rfl⟩

/-! ### The DRAM's words -/

/-- No request's effect touches the DRAM's words. -/
theorem effect_dram {s u : State} (h : RequestEffect s u) : u.mem.dram = s.mem.dram := by
  cases h <;> simp [State.clearClips, State.enterCue, State.addLine]

/-- Every command but DRAM_WRITE_COMPLETE and HARDWARE_RESET leaves the DRAM's words (R126, R141). -/
theorem exec_dram {c : Instr} {s t : State} (h : exec c s = .next t) (hwrite : c ≠ .dramWriteComplete)
    (hreset : c ≠ .hardwareReset) : t.mem.dram = s.mem.dram := by
  by_cases hr : ∃ r, requestOf c = some r
  case pos =>
    obtain ⟨r, hr⟩ := hr
    exact request_preserves (P := fun v => v.mem.dram = s.mem.dram) (fun v l hv => hv)
      (fun v u e hv => (effect_dram e).trans hv) (fun v hv => hv) hr h rfl
  case neg =>
    cases c
    case transferBegin => obtain ⟨l, rfl, -⟩ := transferBegin_link h; rfl
    case twoWireWriteAddress => obtain ⟨l, rfl, -⟩ := twoWireWriteAddress_link h; rfl
    case transferEnd => obtain ⟨l, rfl, -⟩ := transferEnd_link h; rfl
    case outgoingFrameComplete => obtain ⟨l, rfl, -⟩ := outgoingFrameComplete_link h; rfl
    case hardwareReset => exact absurd rfl hreset
    case resetRelease => obtain rfl | ⟨-, rfl⟩ := resetRelease_cases h <;> rfl
    case wordSelectEdge => rw [(wordSelectEdge_keeps h).mem]
    case wordComplete => rw [(wordComplete_keeps h).mem]
    case lossTimerExpiry => rw [(lossTimerExpiry_keeps h).mem]
    case frameStart => rw [(frameStart_keeps h).mem]
    case cueStart => exact (cueStart_keeps h).dram
    case gainStep => exact (gainStep_keeps h).dram
    case accumulate => exact (accumulate_keeps h).1.dram
    case exchangeVisit => exact (exchangeVisit_keeps h).2
    case passReadOffer => exact (passReadOffer_keeps h).2
    case passWriteOffer => exact (passWriteOffer_keeps h).2
    case dramReadComplete => exact (dramReadComplete_keeps h).2
    case dramWriteComplete => exact absurd rfl hwrite
    case refreshDue => exact (refreshDue_keeps h).2.2
    case refreshComplete => exact (refreshComplete_keeps h).2.2
    case clearWrite => exact (clearWrite_keeps h).2.2
    case pinEdge =>
      obtain ⟨-, -, -, -, -, -, -, hmem, -⟩ := pinEdge_keeps h
      rw [hmem]
    all_goals exact absurd ⟨_, rfl⟩ hr

/-- Settles O51: the list of words is the same list. -/
theorem onlyWritesChangeTheDram : Obligations.OnlyWritesChangeTheDram := by
  intro c s t h hwrite hreset a
  rw [exec_dram h hwrite hreset]

/-- Settles O52: a stored word and the word a hardware reset cut off are written in their place, and nothing else touches the list. -/
theorem stepKeepsMemoryCanonical : Obligations.StepKeepsMemoryCanonical := by
  intro s t hs h
  refine step_preserves (P := State.MemoryCanonical) (fun v l hv => hv) (fun c v u hu hv => ?_) h hs
  by_cases hwrite : c = .dramWriteComplete
  case pos =>
    subst hwrite
    obtain ⟨-, -, hd | ⟨a, w, hd⟩⟩ := dramWriteComplete_keeps hu
    · rw [State.MemoryCanonical, hd]
      exact hv
    · rw [State.MemoryCanonical, hd]
      exact Memory.wf_write _ a w hv
  case neg =>
    by_cases hreset : c = .hardwareReset
    case pos =>
      subst hreset
      cases hu
      exact abandon_wf v.mem v.free hv
    case neg =>
      rw [State.MemoryCanonical, exec_dram hu hwrite hreset]
      exact hv

end Sys2Proof.Machine
end

section
/-! PROOFS. Cues and their ramps: completion, the loss of ramps one after another, and what the crosspoint table counts (R45, R50, R85, R99, R100). -/

namespace Sys2Proof.Machine

/-- A property that each step of a fold keeps is kept by the fold. -/
theorem foldl_preserves {α β : Type} {P : β → Prop} {f : β → α → β} (h : ∀ b a, P b → P (f b a)) (l : List α) {b : β} (hb : P b) :
    P (l.foldl f b) := by
  induction l generalizing b with
  | nil => exact hb
  | cons a rest ih => exact ih (h b a hb)

/-! ### Looking a cue up -/

variable {s : State} {x : Byte} {c d : Cue}

theorem findCue_some (h : s.findCue x = some c) : c ∈ s.cues ∧ c.tag = x :=
  ⟨List.mem_of_find?_eq_some h, of_decide_eq_true (List.find?_some (p := fun d : Cue => decide (d.tag = x)) h)⟩

theorem findCue_none : s.findCue x = none ↔ ∀ c ∈ s.cues, c.tag ≠ x := by
  simp [State.findCue]

/-- With distinct tags a tag names one cue. -/
theorem eq_of_tag_eq (h : s.TagsDistinct) (hc : c ∈ s.cues) (hd : d ∈ s.cues) (ht : c.tag = d.tag) : c = d :=
  eq_of_nodup_map h hc hd ht

/-- With distinct tags the cue that is looked up is the cue of the tag. -/
theorem findCue_eq (h : s.TagsDistinct) (hc : c ∈ s.cues) : s.findCue c.tag = some c := by
  cases hf : s.findCue c.tag with
  | none => exact absurd rfl (findCue_none.mp hf c hc)
  | some d =>
    obtain ⟨hd, ht⟩ := findCue_some hf
    rw [eq_of_tag_eq h hd hc ht]

/-- A change of one cue that keeps its tag is what is looked up of that tag. -/
theorem findCue_modifyCue {f : Cue → Cue} (hf : ∀ c, (f c).tag = c.tag) :
    (s.modifyCue x f).findCue x = (s.findCue x).map f := by
  unfold State.findCue State.modifyCue
  induction s.cues with
  | nil => rfl
  | cons c rest ih =>
    by_cases h : c.tag = x
    · simp [h, hf]
    · simpa [h] using ih

/-! ### Completion (R99, R100) -/

/-- A completed cue's record leaves the list, CUE_DONE is raised, and its dependents become NEXT (R100). -/
theorem completeCue_eq (h : s.findCue x = some c) : s.completeCue x = { s with
    link := s.link.occur .cueDone (.cueDone c.group x)
    cues := (s.cues.filter fun d => decide (d.tag ≠ x)).map (Cue.convert x fun g => (s.pass g).isSome) } := by
  rw [State.completeCue, h]
  rfl

theorem completeCue_none (h : s.findCue x = none) : s.completeCue x = s := by rw [State.completeCue, h]

/-- The dependents of one completed cue. -/
theorem convert_eq_chained (s : State) (x : Byte) (c : Cue) : c.convert x (fun g => (s.pass g).isSome) = s.chained [x] c := by
  unfold Cue.convert State.chained
  cases ht : c.trigger <;> simp

/-- A WAITING cue chained to a completed one becomes NEXT (R99). -/
theorem chained_dependent {done : List Byte} {x : Byte} (hw : c.state = .waiting) (ht : c.trigger = .after x) (hx : x ∈ done) :
    s.chained done c = { c with trigger := .next, deferred := (s.pass c.group).isSome } := by
  simp [State.chained, ht, hw, hx]

/-- Any other cue stays as it is. -/
theorem chained_other {done : List Byte} (h : ∀ x ∈ done, c.state = .waiting → c.trigger ≠ .after x) : s.chained done c = c := by
  unfold State.chained
  split
  case h_1 x ht => exact if_neg fun ⟨hw, hx⟩ => h x hx hw ht
  case h_2 => rfl

theorem chained_nil (s : State) (c : Cue) : s.chained [] c = c := chained_other (by simp)

/-- Completions one after another chain as all of them do (R99). -/
theorem chained_chained (s : State) (done : List Byte) (x : Byte) (c : Cue) :
    s.chained [x] (s.chained done c) = s.chained (done ++ [x]) c := by
  by_cases h : ∃ y ∈ done, c.state = .waiting ∧ c.trigger = .after y
  case pos =>
    obtain ⟨y, hy, hw, ht⟩ := h
    rw [chained_dependent hw ht hy, chained_dependent hw ht (List.mem_append_left _ hy)]
    exact chained_other (by simp)
  case neg =>
    have stays : s.chained done c = c := chained_other fun y hy hw ht => h ⟨y, hy, hw, ht⟩
    rw [stays]
    by_cases hx : c.state = .waiting ∧ c.trigger = .after x
    · rw [chained_dependent hx.1 hx.2 (List.mem_singleton_self x), chained_dependent hx.1 hx.2 (by simp)]
    · have other : ∀ y ∈ [x], c.state = .waiting → c.trigger ≠ .after y := by
        intro y hy hw ht
        rw [List.mem_singleton.mp hy] at ht
        exact hx ⟨hw, ht⟩
      rw [chained_other other, chained_other]
      intro y hy hw ht
      rcases List.mem_append.mp hy with h1 | h1
      · exact h ⟨y, h1, hw, ht⟩
      · exact other y h1 hw ht

/-- A dependent's record changes its trigger and its deferred flag alone (R99). -/
@[simp] theorem chained_core (s : State) (done : List Byte) (c : Cue) : (s.chained done c).core = c.core := by
  unfold State.chained
  split
  · split <;> rfl
  · rfl

@[simp] theorem chained_tag (s : State) (done : List Byte) (c : Cue) : (s.chained done c).tag = c.tag :=
  show (s.chained done c).core.tag = c.core.tag by rw [chained_core]

@[simp] theorem chained_state (s : State) (done : List Byte) (c : Cue) : (s.chained done c).state = c.state :=
  show (s.chained done c).core.state = c.core.state by rw [chained_core]

@[simp] theorem chained_outstanding (s : State) (done : List Byte) (c : Cue) : (s.chained done c).outstanding = c.outstanding :=
  show (s.chained done c).core.outstanding = c.core.outstanding by rw [chained_core]

@[simp] theorem chained_edits (s : State) (done : List Byte) (c : Cue) : (s.chained done c).edits = c.edits :=
  show (s.chained done c).core.edits = c.core.edits by rw [chained_core]

@[simp] theorem chained_group (s : State) (done : List Byte) (c : Cue) : (s.chained done c).group = c.group :=
  show (s.chained done c).core.group = c.core.group by rw [chained_core]

/-! ### One ramp lost (R50, R113) -/

/-- The cue list with one ramp less for the cue of a tag. -/
def lowered (x : Byte) (cues : List Cue) : List Cue :=
  cues.map fun c => if c.tag = x then { c with outstanding := c.outstanding - 1 } else c

/-- A lost ramp completes its owner exactly when that may complete, is APPLYING and had no more than the one (R50, R113). -/
abbrev State.Completes (s : State) (x : Byte) (may : Bool) (c : Cue) : Prop :=
  s.findCue x = some c ∧ may = true ∧ c.state = .applying ∧ c.outstanding ≤ 1

/-- What a lowered count does: the owner completes, or nothing but the count changes. -/
theorem lowerRamps_cases (s : State) (x : Byte) (may : Bool) :
    (∃ c, s.Completes x may c ∧ s.lowerRamps x may = { s with
      link := s.link.occur .cueDone (.cueDone c.group x)
      cues := ((lowered x s.cues).filter fun d => decide (d.tag ≠ x)).map (s.chained [x]) }) ∨
    ((∀ c, ¬ s.Completes x may c) ∧ s.lowerRamps x may = { s with cues := lowered x s.cues }) := by
  have found := findCue_modifyCue (s := s) (x := x) (f := fun c => { c with outstanding := c.outstanding - 1 }) fun _ => rfl
  cases hf : s.findCue x with
  | none =>
    right
    refine ⟨fun c hc => absurd (hf.symm.trans hc.1) (Option.some_ne_none c).symm, ?_⟩
    rw [hf, Option.map_none] at found
    simp only [State.lowerRamps, found]
    rfl
  | some c =>
    rw [hf, Option.map_some] at found
    by_cases hc : s.Completes x may c
    · left
      obtain ⟨-, hmay, happ, hout⟩ := hc
      refine ⟨c, ⟨hf, hmay, happ, hout⟩, ?_⟩
      simp only [State.lowerRamps, found]
      rw [if_pos ⟨hmay, happ, by omega⟩, completeCue_eq found]
      rw [show Cue.convert x (fun g => ((s.modifyCue x fun c => { c with outstanding := c.outstanding - 1 }).pass g).isSome) =
        s.chained [x] from funext fun c => convert_eq_chained s x c]
      rfl
    · right
      refine ⟨fun d hd => ?_, ?_⟩
      · rw [Option.some.inj (hf.symm.trans hd.1)] at hc
        exact hc hd
      · simp only [State.lowerRamps, found]
        rw [if_neg fun h => hc ⟨hf, h.1, h.2.1, by have := h.2.2; omega⟩]
        rfl

theorem chained_congr {s t : State} (hp : t.mix.passes = s.mix.passes) (done : List Byte) : t.chained done = s.chained done := by
  funext c
  simp [State.chained, State.pass, hp]

/-- Of the cues of other tags nothing is lowered. -/
theorem lowered_filter (x : Byte) (cues : List Cue) :
    (lowered x cues).filter (fun d => decide (d.tag ≠ x)) = cues.filter fun d => decide (d.tag ≠ x) := by
  induction cues with
  | nil => rfl
  | cons c rest ih =>
    rw [lowered, List.map_cons]
    by_cases h : c.tag = x
    · simpa [h, lowered] using ih
    · simpa [h, lowered] using ih

theorem loseRamp_none {e : Entry} (h : e.owner = none) (s : State) (ap : Option Byte) : s.loseRamp e ap = s := by
  rw [State.loseRamp, h]

theorem loseRamp_some {e : Entry} {y : Byte} (h : e.owner = some y) (s : State) (ap : Option Byte) :
    s.loseRamp e ap = s.lowerRamps y (decide (ap ≠ some y)) := by
  rw [State.loseRamp, h]

/-- The loss of a ramp looks at the cues, the link and the passes alone. -/
theorem lowerRamps_congr {s t : State} (hc : t.cues = s.cues) (hl : t.link = s.link) (hp : t.mix.passes = s.mix.passes) (x : Byte)
    (may : Bool) : (t.lowerRamps x may).cues = (s.lowerRamps x may).cues ∧ (t.lowerRamps x may).link = (s.lowerRamps x may).link := by
  have found (y : Byte) : t.findCue y = s.findCue y := findCue_congr hc y
  obtain ⟨c, h, e⟩ | ⟨h, e⟩ := lowerRamps_cases s x may
  · obtain ⟨d, h', e'⟩ | ⟨h', e'⟩ := lowerRamps_cases t x may
    · have : c = d := Option.some.inj (h.1.symm.trans ((found x).symm.trans h'.1))
      rw [e, e']
      simp only [hc, hl, this, chained_congr hp, and_self]
    · exact absurd ⟨(found x).trans h.1, h.2⟩ (h' c)
  · obtain ⟨d, h', e'⟩ | ⟨h', e'⟩ := lowerRamps_cases t x may
    · exact absurd ⟨(found x).symm.trans h'.1, h'.2⟩ (h d)
    · rw [e, e']
      exact ⟨congrArg (lowered x) hc, hl⟩

theorem loseRamp_congr {s t : State} (hc : t.cues = s.cues) (hl : t.link = s.link) (hp : t.mix.passes = s.mix.passes) (e : Entry)
    (ap : Option Byte) : (t.loseRamp e ap).cues = (s.loseRamp e ap).cues ∧ (t.loseRamp e ap).link = (s.loseRamp e ap).link := by
  cases ho : e.owner with
  | none => rw [loseRamp_none ho, loseRamp_none ho]; exact ⟨hc, hl⟩
  | some y => rw [loseRamp_some ho, loseRamp_some ho]; exact lowerRamps_congr hc hl hp _ _

/-! ### Ramps lost one after another (R50, R59, R68) -/

/-- How many of some entries carry a ramp that names a tag. -/
def ramps (es : List Entry) (x : Byte) : Nat := es.countP fun e => decide (e.owner = some x)

theorem rampsOf_eq (s : State) (x : Byte) : s.rampsOf x = ramps s.mix.xp x := List.countP_eq_length_filter.symm

theorem ramps_append (es fs : List Entry) (x : Byte) : ramps (es ++ fs) x = ramps es x + ramps fs x := List.countP_append

theorem ramps_singleton (e : Entry) (x : Byte) : ramps [e] x = if e.owner = some x then 1 else 0 := by
  simp [ramps, List.countP_cons]

theorem ramps_pos {es : List Entry} {x : Byte} : 0 < ramps es x ↔ ∃ e ∈ es, e.owner = some x := by
  simp [ramps, List.countP_pos_iff]

theorem lowered_tag (x : Byte) (c : Cue) :
    (if c.tag = x then { c with outstanding := c.outstanding - 1 } else c).tag = c.tag := by split <;> rfl

/-- Every count covers the ramps that are to be lost, and only an APPLYING cue owns any. -/
structure State.CoversLoss (s : State) (lost : List Entry) : Prop where
  tags : s.TagsDistinct
  counts : ∀ c ∈ s.cues, ramps lost c.tag ≤ c.outstanding
  applying : ∀ c ∈ s.cues, c.outstanding ≠ 0 → c.state = .applying

/-- The cues that complete when ramps of some entries are lost. -/
abbrev State.Done (s : State) (lost : List Entry) (done : List Cue) : Prop :=
  done.Nodup ∧ (∀ c, c ∈ done ↔ c ∈ s.cues ∧ c.outstanding ≠ 0 ∧ ramps lost c.tag = c.outstanding) ∧
  done.Pairwise (fun c d => ∃ e ∈ lost, e.owner = some d.tag ∧
    ∀ f ∈ lost, f.owner = some c.tag → xpKey f.channel f.bus < xpKey e.channel e.bus)

/-- A cue that stays when ramps are lost, with its lowered count and its trigger as completions leave it. -/
def State.remaining (s : State) (lost : List Entry) (done : List Cue) (c : Cue) : Cue :=
  s.chained (done.map Cue.tag) { c with outstanding := c.outstanding - ramps lost c.tag }

@[simp] theorem remaining_tag (s : State) (lost : List Entry) (done : List Cue) (c : Cue) : (s.remaining lost done c).tag = c.tag :=
  chained_tag _ _ _

@[simp] theorem remaining_outstanding (s : State) (lost : List Entry) (done : List Cue) (c : Cue) :
    (s.remaining lost done c).outstanding = c.outstanding - ramps lost c.tag := chained_outstanding _ _ _

@[simp] theorem remaining_state (s : State) (lost : List Entry) (done : List Cue) (c : Cue) :
    (s.remaining lost done c).state = c.state := chained_state _ _ _

@[simp] theorem remaining_edits (s : State) (lost : List Entry) (done : List Cue) (c : Cue) :
    (s.remaining lost done c).edits = c.edits := chained_edits _ _ _

@[simp] theorem remaining_group (s : State) (lost : List Entry) (done : List Cue) (c : Cue) :
    (s.remaining lost done c).group = c.group := chained_group _ _ _

/-- The cues and the link after ramps of some entries are lost one after another. -/
abbrev State.Lost (s : State) (lost : List Entry) (done : List Cue) (t : State) : Prop :=
  s.Done lost done ∧
  t.cues = (s.cues.filter fun c => decide (c ∉ done)).map (s.remaining lost done) ∧
  t.link = done.foldl (fun l c => l.occur .cueDone (.cueDone c.group c.tag)) s.link ∧
  t.mix.passes = s.mix.passes

/-- The statement's words for it count by the length of a filtered list. -/
theorem cuesAfterLoss_iff (s : State) (lost : List Entry) (cues : List Cue) (link : Link) :
    s.CuesAfterLoss lost cues link ↔ ∃ done, s.Done lost done ∧
      cues = (s.cues.filter fun c => decide (c ∉ done)).map (s.remaining lost done) ∧
      link = done.foldl (fun l c => l.occur .cueDone (.cueDone c.group c.tag)) s.link := by
  unfold State.CuesAfterLoss State.Done State.remaining ramps
  simp only [List.countP_eq_length_filter, and_assoc]

theorem lost_nil (s : State) : s.Lost [] [] s := by
  refine ⟨⟨List.nodup_nil, fun c => ?_, List.Pairwise.nil⟩, ?_, rfl, rfl⟩
  · simp only [List.not_mem_nil, ramps, List.countP_nil, false_iff]
    rintro ⟨-, h, h'⟩
    exact h h'.symm
  · have same : s.remaining [] [] = id := funext fun c => chained_nil s c
    rw [same, List.map_id]
    exact (List.filter_eq_self.mpr fun c _ => decide_eq_true List.not_mem_nil).symm

/-- An entry without a ramp adds nothing to what is lost. -/
theorem ramps_append_none {e : Entry} (h : e.owner = none) (es : List Entry) : ramps (es ++ [e]) = ramps es := by
  funext x
  rw [ramps_append, ramps_singleton, h, if_neg (by simp), Nat.add_zero]

theorem ramps_append_self {e : Entry} {y : Byte} (h : e.owner = some y) (es : List Entry) : ramps (es ++ [e]) y = ramps es y + 1 := by
  rw [ramps_append, ramps_singleton, if_pos h]

theorem ramps_append_other {e : Entry} {x y : Byte} (h : e.owner = some y) (hx : x ≠ y) (es : List Entry) :
    ramps (es ++ [e]) x = ramps es x := by
  rw [ramps_append, ramps_singleton, h, if_neg fun hy => hx (Option.some.inj hy).symm, Nat.add_zero]

theorem chained_setOutstanding (s : State) (done : List Byte) (c : Cue) (n : Nat) :
    s.chained done { c with outstanding := n } = { s.chained done c with outstanding := n } := by
  by_cases h : ∃ x ∈ done, c.state = .waiting ∧ c.trigger = .after x
  · obtain ⟨x, hx, hw, ht⟩ := h
    rw [chained_dependent hw ht hx, chained_dependent (c := { c with outstanding := n }) hw ht hx]
  · have other : ∀ x ∈ done, c.state = .waiting → c.trigger ≠ .after x := fun x hx hw ht => h ⟨x, hx, hw, ht⟩
    rw [chained_other other, chained_other (c := { c with outstanding := n }) other]

/-- The tags that remain are tags of the list, still distinct. -/
theorem lost_tagsDistinct {lost : List Entry} {done : List Cue} {v : State} (hs : s.TagsDistinct) (h : s.Lost lost done v) :
    v.TagsDistinct := by
  obtain ⟨-, hcues, -, -⟩ := h
  have tags : v.cues.map Cue.tag = (s.cues.filter fun c => decide (c ∉ done)).map Cue.tag := by
    rw [hcues, List.map_map]
    exact List.map_congr_left fun c _ => remaining_tag s lost done c
  rw [State.TagsDistinct, tags]
  exact hs.sublist (List.filter_sublist.map Cue.tag)

/-- A cue that has lost its last ramp has no further one to lose. -/
theorem done_not_owner {lost : List Entry} {e : Entry} {done : List Cue} (hc : s.CoversLoss (lost ++ [e])) (hd : s.Done lost done)
    (hx : c ∈ done) : e.owner ≠ some c.tag := by
  intro ho
  obtain ⟨-, mem, -⟩ := hd
  obtain ⟨hmem, -, hcount⟩ := (mem c).mp hx
  have := hc.counts c hmem
  rw [ramps_append_self ho] at this
  omega

/-- Losing one more ramp, of which no cue dies, keeps the cues that are done. -/
theorem done_snoc {lost : List Entry} {e : Entry} {done : List Cue} (hc : s.CoversLoss (lost ++ [e])) (hd : s.Done lost done)
    (last : ∀ c ∈ s.cues, e.owner = some c.tag → c.outstanding ≠ ramps lost c.tag + 1) : s.Done (lost ++ [e]) done := by
  have owner {c : Cue} (hx : c ∈ done) : e.owner ≠ some c.tag := done_not_owner hc hd hx
  obtain ⟨nodup, mem, pairwise⟩ := hd
  refine ⟨nodup, fun c => ?_, pairwise.imp_of_mem fun {a b} ha hb => ?_⟩
  · by_cases ho : e.owner = some c.tag
    · rw [ramps_append_self ho]
      refine iff_of_false (fun hx => owner hx ho) ?_
      rintro ⟨hmem, -, hcount⟩
      exact last c hmem ho hcount.symm
    · rw [mem c]
      have : ramps (lost ++ [e]) c.tag = ramps lost c.tag := by
        rw [ramps_append, ramps_singleton, if_neg ho, Nat.add_zero]
      rw [this]
  · rintro ⟨g, hg, hgo, hlt⟩
    refine ⟨g, List.mem_append_left _ hg, hgo, fun f hf hfo => ?_⟩
    rcases List.mem_append.mp hf with hf | hf
    · exact hlt f hf hfo
    · rw [List.mem_singleton.mp hf] at hfo
      exact absurd hfo (owner ha)

/-- Losing one more ramp, the last of a cue, makes that cue the next to be done. -/
theorem done_snoc_last {lost : List Entry} {e : Entry} {done : List Cue} (hc : s.CoversLoss (lost ++ [e])) (hd : s.Done lost done)
    (order : ∀ f ∈ lost, xpKey f.channel f.bus < xpKey e.channel e.bus) (hx : c ∈ s.cues) (ho : e.owner = some c.tag)
    (last : c.outstanding = ramps lost c.tag + 1) : s.Done (lost ++ [e]) (done ++ [c]) := by
  have owner {d : Cue} (hd' : d ∈ done) : e.owner ≠ some d.tag := done_not_owner hc hd hd'
  obtain ⟨nodup, mem, pairwise⟩ := hd
  have fresh : c ∉ done := fun h => owner h ho
  refine ⟨List.nodup_append.mpr ⟨nodup, nodup_singleton c, ?_⟩, fun d => ?_, ?_⟩
  · rintro a ha b hb rfl
    exact fresh (List.mem_singleton.mp hb ▸ ha)
  · rw [List.mem_append, List.mem_singleton]
    by_cases same : d.tag = c.tag
    · constructor
      · rintro (h | rfl)
        · exact absurd (same ▸ ho) (owner h)
        · exact ⟨hx, by omega, by rw [ramps_append_self ho, last]⟩
      · rintro ⟨hmem, -, -⟩
        exact .inr (eq_of_tag_eq hc.tags hmem hx same)
    · rw [ramps_append_other ho same, ← mem d]
      exact ⟨fun h => h.resolve_right fun he => same (congrArg Cue.tag he), .inl⟩
  · refine List.pairwise_append.mpr ⟨pairwise.imp_of_mem fun {a b} ha hb => ?_, List.pairwise_singleton _ c, fun a ha b hb => ?_⟩
    · rintro ⟨g, hg, hgo, hlt⟩
      refine ⟨g, List.mem_append_left _ hg, hgo, fun f hf hfo => ?_⟩
      rcases List.mem_append.mp hf with hf | hf
      · exact hlt f hf hfo
      · rw [List.mem_singleton.mp hf] at hfo
        exact absurd hfo (owner ha)
    · rw [List.mem_singleton.mp hb]
      refine ⟨e, by simp, ho, fun f hf hfo => ?_⟩
      rcases List.mem_append.mp hf with hf | hf
      · exact order f hf
      · rw [List.mem_singleton.mp hf] at hfo
        exact absurd hfo (owner ha)

/-- A remaining cue that loses no further ramp but sees its owner complete. -/
theorem chained_remaining {lost : List Entry} {e : Entry} {done : List Cue} (ho : e.owner = some c.tag) (hd : d.tag ≠ c.tag) :
    s.chained [c.tag] (s.remaining lost done d) = s.remaining (lost ++ [e]) (done ++ [c]) d := by
  simp only [State.remaining, chained_chained, ramps_append_other ho hd, List.map_append, List.map_cons, List.map_nil]

/-- The count of a remaining cue that loses one more ramp. -/
theorem lowered_remaining {lost : List Entry} {e : Entry} {done : List Cue} {y : Byte} (ho : e.owner = some y) (d : Cue) :
    (if (s.remaining lost done d).tag = y then
      { s.remaining lost done d with outstanding := (s.remaining lost done d).outstanding - 1 } else s.remaining lost done d) =
    s.remaining (lost ++ [e]) done d := by
  rw [remaining_tag]
  by_cases h : d.tag = y
  · subst h
    rw [if_pos rfl, remaining_outstanding]
    simp only [State.remaining, chained_setOutstanding, ramps_append_self ho, Nat.sub_sub]
  · rw [if_neg h]
    simp only [State.remaining, ramps_append_other ho h]

/-- A cue of the list that is not yet done stands in the list with its lowered count. -/
theorem lost_findCue {lost : List Entry} {done : List Cue} {v : State} (hs : s.TagsDistinct) (h : s.Lost lost done v) (hx : c ∈ s.cues)
    (hd : c ∉ done) : v.findCue c.tag = some (s.remaining lost done c) := by
  have distinct := lost_tagsDistinct hs h
  obtain ⟨-, hcues, -, -⟩ := h
  have hmem : s.remaining lost done c ∈ v.cues := by
    rw [hcues]
    exact List.mem_map_of_mem (List.mem_filter.mpr ⟨hx, decide_eq_true hd⟩)
  simpa using findCue_eq distinct hmem

/-- One more ramp is lost. -/
theorem lost_snoc {lost : List Entry} {e : Entry} {done : List Cue} {v : State} (hc : s.CoversLoss (lost ++ [e]))
    (order : ∀ f ∈ lost, xpKey f.channel f.bus < xpKey e.channel e.bus) (h : s.Lost lost done v) :
    ∃ done', s.Lost (lost ++ [e]) done' (v.loseRamp e none) := by
  have found {c : Cue} (hx : c ∈ s.cues) (hn : c ∉ done) : v.findCue c.tag = some (s.remaining lost done c) :=
    lost_findCue hc.tags h hx hn
  have notDone {c : Cue} (ho : e.owner = some c.tag) : c ∉ done := fun hx => done_not_owner hc h.1 hx ho
  obtain ⟨hdone, hcues, hlink, hpasses⟩ := h
  cases ho : e.owner with
  | none =>
    refine ⟨done, done_snoc hc hdone fun c _ h => absurd (ho.symm.trans h) (by simp), ?_⟩
    have same : s.remaining (lost ++ [e]) done = s.remaining lost done := by
      funext c
      simp only [State.remaining, ramps_append_none ho]
    rw [loseRamp_none ho, same]
    exact ⟨hcues, hlink, hpasses⟩
  | some y =>
    rw [loseRamp_some ho]
    obtain ⟨x, ⟨hx, -, happ, hout⟩, e'⟩ | ⟨hnot, e'⟩ := lowerRamps_cases v y true
    case inl =>
      obtain ⟨hmem, rfl⟩ := findCue_some hx
      rw [hcues] at hmem
      obtain ⟨c, hcmem, rfl⟩ := List.mem_map.mp hmem
      obtain ⟨hin, hn⟩ := List.mem_filter.mp hcmem
      rw [remaining_tag] at ho
      rw [remaining_outstanding] at hout
      have covered := hc.counts c hin
      rw [ramps_append_self ho] at covered
      refine ⟨done ++ [c], done_snoc_last hc hdone order hin ho (by omega), ?_⟩
      rw [show (v.lowerRamps _ (decide (none ≠ some _))) = v.lowerRamps (s.remaining lost done c).tag true from rfl, e']
      refine ⟨?_, ?_, hpasses⟩
      · show ((lowered _ v.cues).filter _).map (v.chained _) = _
        rw [chained_congr hpasses, hcues, lowered_filter, remaining_tag, List.filter_map, List.filter_filter, List.map_map]
        rw [List.filter_congr (q := fun d => decide (d ∉ done ++ [c])) fun d hd => ?_]
        · refine List.map_congr_left fun d hd => chained_remaining ho fun same => ?_
          obtain ⟨hd, hnew⟩ := List.mem_filter.mp hd
          exact absurd (List.mem_append_right done (List.mem_singleton.mpr (eq_of_tag_eq hc.tags hd hin same))) (of_decide_eq_true hnew)
        · have tag_iff : d.tag = c.tag ↔ d = c := ⟨eq_of_tag_eq hc.tags hd hin, congrArg Cue.tag⟩
          simp [tag_iff, and_comm]
      · show v.link.occur _ _ = _
        rw [hlink, List.foldl_append, remaining_group, remaining_tag]
        rfl
    case inr =>
      have last (c : Cue) (hx : c ∈ s.cues) (hco : e.owner = some c.tag) : c.outstanding ≠ ramps lost c.tag + 1 := by
        intro hcount
        obtain rfl := Option.some.inj (ho.symm.trans hco)
        refine hnot _ ⟨found hx (notDone hco), rfl, ?_, by rw [remaining_outstanding]; omega⟩
        rw [remaining_state]
        exact hc.applying c hx (by omega)
      refine ⟨done, done_snoc hc hdone last, ?_⟩
      rw [show (v.lowerRamps y (decide (none ≠ some y))) = v.lowerRamps y true from rfl, e']
      refine ⟨?_, hlink, hpasses⟩
      show lowered y v.cues = _
      rw [lowered, hcues, List.map_map]
      exact List.map_congr_left fun d _ => lowered_remaining ho d

/-- An operation that, of the cues, the link and the passes, does what the loss of an entry's ramp does. -/
abbrev LosesRamp (f : State → Entry → State) : Prop :=
  ∀ v e, (f v e).cues = (v.loseRamp e none).cues ∧ (f v e).link = (v.loseRamp e none).link ∧ (f v e).mix.passes = v.mix.passes

theorem CoversLoss.of_append {lost rest : List Entry} (h : s.CoversLoss (lost ++ rest)) : s.CoversLoss lost := by
  refine ⟨h.tags, fun c hc => ?_, h.applying⟩
  have := h.counts c hc
  rw [ramps_append] at this
  omega

/-- Ramps lost one after another, in ascending order of the table (R50, R59, R68). -/
theorem lost_foldl {f : State → Entry → State} (hf : LosesRamp f) {lost : List Entry} (hc : s.CoversLoss lost) (order : InOrder lost)
    {t : State} (hcues : t.cues = s.cues) (hlink : t.link = s.link) (hpasses : t.mix.passes = s.mix.passes) :
    ∃ done, s.Lost lost done (lost.foldl f t) := by
  induction lost using snoc_induction with
  | nil =>
    obtain ⟨hd, he, hl, -⟩ := lost_nil s
    exact ⟨[], hd, hcues.trans he, hlink.trans hl, hpasses⟩
  | snoc lost e ih =>
    rw [InOrder, List.pairwise_append] at order
    obtain ⟨order, -, below⟩ := order
    obtain ⟨done, h⟩ := ih (CoversLoss.of_append hc) order
    obtain ⟨done', hd, he, hl, hp⟩ := lost_snoc hc (fun f hf => below f hf e (List.mem_singleton_self e)) h
    obtain ⟨fc, fl, fp⟩ := hf (lost.foldl f t) e
    rw [List.foldl_append, List.foldl_cons, List.foldl_nil]
    exact ⟨done', hd, fc.trans he, fl.trans hl, fp.trans h.2.2.2⟩

/-- Exact counts cover the loss of some of the table's entries. -/
theorem coversLoss_of_exact {lost : List Entry} (ht : s.TagsDistinct) (hr : s.RampCountsExact) (sub : lost.Sublist s.mix.xp) :
    s.CoversLoss lost := by
  refine ⟨ht, fun c hc => ?_, fun c hc hne => ?_⟩
  · rw [(hr.1 c hc).1, rampsOf_eq]
    exact sub.countP_le
  · obtain ⟨-, waits, -⟩ := hr.1 c hc
    cases hs : c.state with
    | waiting => exact absurd (waits hs) hne
    | applying => rfl

end Sys2Proof.Machine
end

section
/-! PROOFS. The ledger of ramps: what the crosspoint table counts after each of its operations, and that the cues' counts keep up with it (R45, R50, R85). -/

namespace Sys2Proof.Machine

variable {s t : State} {x y : Byte} {c d : Cue}

/-! ### What a table counts -/

/-- Each entry is counted in what becomes of it or among those selected. -/
theorem countP_filterMap_add {P : Entry → Bool} {f : Entry → Option Entry} {sel : Entry → Bool} (xp : List Entry)
    (h : ∀ e ∈ xp, (f e).toList.countP P + (if sel e then [e].countP P else 0) = [e].countP P) :
    (xp.filterMap f).countP P + (xp.filter sel).countP P = xp.countP P := by
  induction xp with
  | nil => rfl
  | cons e rest ih =>
    have hrest := ih fun d hd => h d (List.mem_cons_of_mem _ hd)
    have he := h e List.mem_cons_self
    rw [List.filterMap_cons, List.filter_cons, ← List.singleton_append (l := rest), List.countP_append]
    cases hf : f e <;> cases hs : sel e <;> simp only [hf, hs, Option.toList, List.countP_nil, if_true, Bool.false_eq_true, if_false] at he <;>
      simp only [if_true, Bool.false_eq_true, if_false, ← List.singleton_append (l := List.filterMap f rest),
        ← List.singleton_append (l := rest.filter sel), List.countP_append] <;> omega

/-- What is filtered out and what is kept make up the table. -/
theorem countP_filter_add (P : Entry → Bool) (sel : Entry → Bool) (xp : List Entry) :
    (xp.filter fun e => !sel e).countP P + (xp.filter sel).countP P = xp.countP P := by
  rw [← List.filterMap_eq_filter]
  refine countP_filterMap_add xp fun e _ => ?_
  cases hs : sel e <;> simp [hs, Option.guard]

/-- An entry put in its place takes the place of the pair's old one. -/
theorem countP_put {xp : List Entry} (h : InOrder xp) (P : Entry → Bool) (e : Entry) :
    (xpPut e xp).countP P + (xpFind xp e.channel e.bus).toList.countP P = xp.countP P + [e].countP P := by
  induction xp with
  | nil => simp [xpPut, xpFind]
  | cons d rest ih =>
    have h' := h
    rw [InOrder, List.pairwise_cons] at h
    obtain ⟨hd, hrest⟩ := h
    rw [xpPut]
    split
    case isTrue below =>
      have none : xpFind (d :: rest) e.channel e.bus = none := by
        rw [xpFind_none]
        rintro f hf ⟨hc, hb⟩
        rcases List.mem_cons.mp hf with rfl | hf
        · rw [hc, hb] at below
          omega
        · have := hd f hf
          rw [hc, hb] at this
          omega
      rw [none, List.countP_cons (l := d :: rest), List.countP_cons (l := [])]
      simp
    case isFalse =>
      split
      case isTrue same =>
        obtain ⟨hc, hb⟩ := xpKey_inj.mp same
        rw [xpFind_cons, if_pos ⟨hc.symm, hb.symm⟩]
        simp only [List.countP_cons, Option.toList, List.countP_nil]
        omega
      case isFalse differs =>
        have other : ¬(d.channel = e.channel ∧ d.bus = e.bus) := fun ⟨hc, hb⟩ => differs (xpKey_inj.mpr ⟨hc.symm, hb.symm⟩)
        have := ih hrest
        rw [xpFind_cons, if_neg other, List.countP_cons, List.countP_cons (l := rest)]
        omega

/-- A removed pair takes its entry with it. -/
theorem countP_remove {xp : List Entry} (h : InOrder xp) (P : Entry → Bool) {e : Entry} (he : e ∈ xp) :
    (xpRemove xp e.channel e.bus).countP P + [e].countP P = xp.countP P := by
  have only : xp.filter (fun f => decide (f.channel = e.channel ∧ f.bus = e.bus)) = [e] := by
    induction xp with
    | nil => cases he
    | cons d rest ih =>
      rw [InOrder, List.pairwise_cons] at h
      obtain ⟨hd, hrest⟩ := h
      rcases List.mem_cons.mp he with rfl | he
      · rw [List.filter_cons_of_pos (by simp), List.filter_eq_nil_iff.mpr]
        intro f hf same
        obtain ⟨hc, hb⟩ := of_decide_eq_true same
        have := hd f hf
        rw [hc, hb] at this
        omega
      · rw [List.filter_cons_of_neg, ih hrest he]
        intro same
        obtain ⟨hc, hb⟩ := of_decide_eq_true same
        have := hd e he
        rw [hc, hb] at this
        omega
  rw [← countP_filter_add P (fun f => decide (f.channel = e.channel ∧ f.bus = e.bus)) xp, only]
  congr 2
  exact List.filter_congr fun f _ => by simp

theorem entriesOn_eq (s : State) (b : BusId) : s.entriesOn b = s.mix.xp.countP fun e => decide (e.bus = b) :=
  List.countP_eq_length_filter.symm

/-! ### The cues' counts -/

/-- The counts of some cues are `n` of their tags, and every tag with a count is in the list.
But for the cue that is being applied, if any, which is APPLYING with no edits, each record is consistent (R84, R85, R87). -/
structure CuesOwn (ap : Option Byte) (n : Byte → Nat) (cues : List Cue) : Prop where
  distinct : (cues.map Cue.tag).Nodup
  counts : ∀ c ∈ cues, c.outstanding = n c.tag
  consistent : ∀ c ∈ cues, ap ≠ some c.tag → c.Consistent
  applying : ∀ c ∈ cues, ap = some c.tag → c.state = .applying ∧ c.edits = []
  listed : ∀ y, n y ≠ 0 ∨ ap = some y → y ∈ cues.map Cue.tag

/-- The two invariants of the cue list are that its counts are those of the table. -/
theorem cuesOwn_iff (s : State) : s.TagsDistinct ∧ s.RampCountsExact ↔ CuesOwn none (ramps s.mix.xp) s.cues := by
  have owned : (∀ e ∈ s.mix.xp, ∀ r ∈ e.state.ramp, r.owner ∈ s.cues.map Cue.tag) ↔
      ∀ y, ramps s.mix.xp y ≠ 0 → y ∈ s.cues.map Cue.tag := by
    constructor
    · intro h y hy
      obtain ⟨e, he, ho⟩ := ramps_pos.mp (Nat.pos_of_ne_zero hy)
      obtain ⟨r, hr, rfl⟩ := Option.map_eq_some_iff.mp ho
      exact h e he r hr
    · intro h e he r hr
      exact h r.owner (Nat.ne_of_gt (ramps_pos.mpr ⟨e, he, Option.map_eq_some_iff.mpr ⟨r, hr, rfl⟩⟩))
  constructor
  · rintro ⟨ht, hc, ho⟩
    refine ⟨ht, fun c hx => (hc c hx).1.trans (rampsOf_eq s c.tag), fun c hx _ => (hc c hx).2, fun c _ h => absurd h (by simp), ?_⟩
    rintro y (h | h)
    · exact owned.mp ho y h
    · cases h
  · rintro ⟨ht, hc, hcons, -, hl⟩
    exact ⟨ht, fun c hx => ⟨(hc c hx).trans (rampsOf_eq s c.tag).symm, hcons c hx (by simp)⟩, owned.mpr fun y h => hl y (.inl h)⟩

/-- Only the records' cores matter. -/
theorem CuesOwn.of_cores {ap : Option Byte} {n : Byte → Nat} {cs ds : List Cue} (h : CuesOwn ap n cs)
    (cores : ds.map Cue.core = cs.map Cue.core) : CuesOwn ap n ds := by
  have tags : ds.map Cue.tag = cs.map Cue.tag := by
    have := congrArg (List.map Cue.tag) cores
    simpa [Function.comp_def, Cue.core] using this
  have same {d : Cue} (hd : d ∈ ds) : ∃ c ∈ cs, c.core = d.core := by
    have := List.mem_map_of_mem (f := Cue.core) hd
    rw [cores] at this
    exact List.mem_map.mp this
  have facts {c d : Cue} (h : c.core = d.core) :
      c.tag = d.tag ∧ c.outstanding = d.outstanding ∧ c.state = d.state ∧ c.edits = d.edits := by
    show c.core.tag = d.core.tag ∧ c.core.outstanding = d.core.outstanding ∧ c.core.state = d.core.state ∧ c.core.edits = d.core.edits
    rw [h]
    exact ⟨rfl, rfl, rfl, rfl⟩
  refine ⟨tags ▸ h.distinct, fun d hd => ?_, fun d hd hne => ?_, fun d hd he => ?_, tags ▸ h.listed⟩
  all_goals
    obtain ⟨c, hc, hcd⟩ := same hd
    obtain ⟨ht, ho, hs, he'⟩ := facts hcd
  · rw [← ht, ← ho]
    exact h.counts c hc
  · have := h.consistent c hc (ht ▸ hne)
    rw [Cue.Consistent] at this ⊢
    rw [← ho, ← hs, ← he']
    exact this
  · rw [← hs, ← he']
    exact h.applying c hc (ht ▸ he)

/-! ### Operations on the cues' counts -/

variable {ap : Option Byte} {n : Byte → Nat}

/-- A tag's cue changes its count alone. -/
theorem lowered_mem {cues : List Cue} (h : d ∈ lowered x cues) :
    ∃ c ∈ cues, d = if c.tag = x then { c with outstanding := c.outstanding - 1 } else c := by
  obtain ⟨c, hc, rfl⟩ := List.mem_map.mp h
  exact ⟨c, hc, rfl⟩

theorem lowered_tags (x : Byte) (cues : List Cue) : (lowered x cues).map Cue.tag = cues.map Cue.tag := by
  rw [lowered, List.map_map]
  exact List.map_congr_left fun c _ => lowered_tag x c

/-- The cues without that of a tag, when the tag has no ramp left. -/
theorem CuesOwn.remove {cues : List Cue} (h : CuesOwn ap n cues) (hx : ap ≠ some x) {m : Byte → Nat} (hm : m x = 0)
    (other : ∀ y, y ≠ x → m y = n y) : CuesOwn ap m (cues.filter fun d => decide (d.tag ≠ x)) := by
  have mem {c : Cue} (hc : c ∈ cues.filter fun d => decide (d.tag ≠ x)) : c ∈ cues ∧ c.tag ≠ x := by simpa using hc
  refine ⟨h.distinct.sublist (List.filter_sublist.map Cue.tag), fun c hc => ?_, fun c hc => h.consistent c (mem hc).1,
    fun c hc => h.applying c (mem hc).1, fun y hy => ?_⟩
  · rw [other _ (mem hc).2]
    exact h.counts c (mem hc).1
  · have ne : y ≠ x := by
      rintro rfl
      exact hy.elim (fun h => h hm) hx
    rw [other y ne] at hy
    obtain ⟨c, hc, rfl⟩ := List.mem_map.mp (h.listed y hy)
    exact List.mem_map_of_mem (List.mem_filter.mpr ⟨hc, by simpa using ne⟩)

/-- The loss of one ramp that the counts cover (R50, R113). -/
theorem CuesOwn.loseRamp {e : Entry} (h : CuesOwn ap n s.cues) (cover : ∀ y, ramps [e] y ≤ n y) :
    CuesOwn ap (fun y => n y - ramps [e] y) (s.loseRamp e ap).cues := by
  cases ho : e.owner with
  | none =>
    have : (fun y => n y - ramps [e] y) = n := by
      funext y
      rw [ramps_singleton, ho, if_neg (by simp), Nat.sub_zero]
    rw [loseRamp_none ho, this]
    exact h
  | some x =>
    have atOwner : ramps [e] x = 1 := by rw [ramps_singleton, if_pos ho]
    have elsewhere {y : Byte} (hy : y ≠ x) : ramps [e] y = 0 := by
      rw [ramps_singleton, ho, if_neg fun he => hy (Option.some.inj he).symm]
    have positive := cover x
    rw [loseRamp_some ho]
    obtain ⟨c, ⟨hx, hmay, -, hout⟩, e'⟩ | ⟨hnot, e'⟩ := lowerRamps_cases s x (decide (ap ≠ some x))
    case inl =>
      obtain ⟨hc, rfl⟩ := findCue_some hx
      have count := h.counts c hc
      rw [e']
      refine CuesOwn.of_cores ?_ (map_core_map _ fun d => chained_core s _ d)
      rw [lowered_filter]
      exact h.remove (of_decide_eq_true hmay) (by omega) fun y hy => by rw [elsewhere hy, Nat.sub_zero]
    case inr =>
      rw [e']
      refine ⟨?_, fun d hd => ?_, fun d hd hne => ?_, fun d hd he => ?_, fun y hy => ?_⟩
      · show ((lowered x s.cues).map Cue.tag).Nodup
        rw [lowered_tags]
        exact h.distinct
      · obtain ⟨c, hc, rfl⟩ := lowered_mem hd
        have count := h.counts c hc
        by_cases ht : c.tag = x
        · rw [if_pos ht, ht, atOwner, ← ht, ← count]
        · rw [if_neg ht, elsewhere ht, Nat.sub_zero, count]
      · obtain ⟨c, hc, rfl⟩ := lowered_mem hd
        rw [lowered_tag] at hne
        have cons := h.consistent c hc hne
        by_cases ht : c.tag = x
        · subst ht
          rw [if_pos rfl]
          have count := h.counts c hc
          obtain ⟨hw, ha⟩ := cons
          have applying : c.state = .applying := by
            cases hs : c.state with
            | waiting => exact absurd (hw hs) (by omega)
            | applying => rfl
          refine ⟨fun hs => absurd (hs.symm.trans applying) (by simp), fun _ => ⟨?_, (ha applying).2⟩⟩
          have found := findCue_eq (s := s) h.distinct hc
          refine Classical.byContradiction fun zero => ?_
          have zero : ¬ 0 < c.outstanding - 1 := zero
          exact hnot c ⟨found, by simpa using hne, applying, by omega⟩
        · rw [if_neg ht]
          exact cons
      · obtain ⟨c, hc, rfl⟩ := lowered_mem hd
        rw [lowered_tag] at he
        have := h.applying c hc he
        split
        · exact this
        · exact this
      · show y ∈ (lowered x s.cues).map Cue.tag
        rw [lowered_tags]
        exact h.listed y (hy.imp_left fun hne hz => hne (by omega))

/-- Ramps lost one after another. -/
theorem CuesOwn.loseRamps {f : State → Entry → State} (hf : ∀ v e, (f v e).cues = (v.loseRamp e none).cues) {lost : List Entry}
    {s : State} (h : CuesOwn none n s.cues) (cover : ∀ y, ramps lost y ≤ n y) :
    CuesOwn none (fun y => n y - ramps lost y) (lost.foldl f s).cues := by
  induction lost generalizing s n with
  | nil => exact h
  | cons e rest ih =>
    have split (y : Byte) : ramps (e :: rest) y = ramps [e] y + ramps rest y := ramps_append [e] rest y
    have one := h.loseRamp (e := e) fun y => by
      have := cover y
      rw [split] at this
      omega
    rw [← hf] at one
    have rest := ih one fun y => by
      have := cover y
      rw [split] at this
      omega
    simp only [Nat.sub_sub, ← split] at rest
    exact rest

/-- A cue that is being applied owns one more ramp (R85). -/
theorem CuesOwn.raiseRamps (h : CuesOwn (some x) n s.cues) :
    CuesOwn (some x) (fun y => n y + if y = x then 1 else 0) (s.raiseRamps x).cues := by
  have tag (c : Cue) : (if c.tag = x then { c with outstanding := c.outstanding + 1 } else c).tag = c.tag := by split <;> rfl
  have tags : (s.raiseRamps x).cues.map Cue.tag = s.cues.map Cue.tag := by
    rw [State.raiseRamps, modifyCue_cues, List.map_map]
    exact List.map_congr_left fun c _ => tag c
  have mem {d : Cue} (hd : d ∈ (s.raiseRamps x).cues) :
      ∃ c ∈ s.cues, d = if c.tag = x then { c with outstanding := c.outstanding + 1 } else c := by
    obtain ⟨c, hc, rfl⟩ := List.mem_map.mp hd
    exact ⟨c, hc, rfl⟩
  refine ⟨tags ▸ h.distinct, fun d hd => ?_, fun d hd hne => ?_, fun d hd he => ?_, fun y hy => ?_⟩
  · obtain ⟨c, hc, rfl⟩ := mem hd
    rw [tag]
    split <;> simp [h.counts c hc]
  · obtain ⟨c, hc, rfl⟩ := mem hd
    rw [tag] at hne
    rw [if_neg fun ht => hne (congrArg some ht.symm)]
    exact h.consistent c hc hne
  · obtain ⟨c, hc, rfl⟩ := mem hd
    rw [tag] at he
    split
    · exact h.applying c hc he
    · exact h.applying c hc he
  · rw [tags]
    by_cases hyx : y = x
    · exact h.listed y (.inr (congrArg some hyx.symm))
    · exact h.listed y (by simpa [hyx] using hy)

/-- A cue that is posted owns no ramp yet (R92). -/
theorem CuesOwn.enter (h : CuesOwn none n s.cues) (hw : c.state = .waiting) (ho : c.outstanding = 0) (new : s.findCue c.tag = none) :
    CuesOwn none n (s.enterCue c).cues := by
  have fresh : c.tag ∉ s.cues.map Cue.tag := by
    intro hmem
    obtain ⟨d, hd, ht⟩ := List.mem_map.mp hmem
    exact findCue_none.mp new d hd ht
  have unowned : n c.tag = 0 := by
    refine Classical.byContradiction fun hne => ?_
    exact fresh (h.listed c.tag (.inl hne))
  show CuesOwn none n (s.cues ++ [c])
  refine ⟨?_, fun d hd => ?_, fun d hd hne => ?_, fun d hd he => absurd he (by simp), fun y hy => ?_⟩
  · rw [List.map_append]
    refine List.nodup_append.mpr ⟨h.distinct, nodup_singleton _, fun a ha b hb => ?_⟩
    rintro rfl
    exact fresh (List.mem_singleton.mp hb ▸ ha)
  · rcases List.mem_append.mp hd with hd | hd
    · exact h.counts d hd
    · rw [List.mem_singleton.mp hd, ho, unowned]
  · rcases List.mem_append.mp hd with hd | hd
    · exact h.consistent d hd hne
    · rw [List.mem_singleton.mp hd]
      exact ⟨fun _ => ho, fun ha => absurd (hw.symm.trans ha) (by simp)⟩
  · rw [List.map_append]
    exact List.mem_append_left _ (h.listed y hy)

/-- Cues that are withdrawn leave with all their ramps (R101, R121). -/
theorem CuesOwn.withdraw {cues : List Cue} (h : CuesOwn none n cues) (tags : List Byte) :
    CuesOwn none (fun y => if y ∈ tags then 0 else n y) (cues.filter fun c => decide (c.tag ∉ tags)) := by
  have mem {c : Cue} (hc : c ∈ cues.filter fun c => decide (c.tag ∉ tags)) : c ∈ cues ∧ c.tag ∉ tags := by simpa using hc
  refine ⟨h.distinct.sublist (List.filter_sublist.map Cue.tag), fun c hc => ?_, fun c hc => h.consistent c (mem hc).1,
    fun c hc => h.applying c (mem hc).1, fun y hy => ?_⟩
  · rw [if_neg (mem hc).2]
    exact h.counts c (mem hc).1
  · have stays : y ∉ tags := by
      intro hy'
      simp [hy'] at hy
    rw [if_neg stays] at hy
    obtain ⟨c, hc, rfl⟩ := List.mem_map.mp (h.listed y hy)
    exact List.mem_map_of_mem (List.mem_filter.mpr ⟨hc, by simpa using stays⟩)

/-! ### A cue that is taken (R65, R98, R120) -/

/-- What a due cue's record becomes when it is taken (R98; log 17). -/
def Cue.applied (c : Cue) : Cue := { c with state := .applying, edits := [], armed := false }

/-- A taken cue's edits have left the pool, and its record is APPLYING. -/
def State.beginApplying (s : State) (c : Cue) : State := (s.releaseHolds c.edits).modifyCue c.tag Cue.applied

theorem applied_tag (x : Byte) (c : Cue) : (if c.tag = x then c.applied else c).tag = c.tag := by split <;> rfl

theorem beginApplying_cues (s : State) (c : Cue) :
    (s.beginApplying c).cues = s.cues.map fun d => if d.tag = c.tag then d.applied else d := by
  simp [State.beginApplying]

theorem CuesOwn.begin (h : CuesOwn none n s.cues) (hc : c ∈ s.cues) : CuesOwn (some c.tag) n (s.beginApplying c).cues := by
  rw [beginApplying_cues]
  have tags : (s.cues.map fun d => if d.tag = c.tag then d.applied else d).map Cue.tag = s.cues.map Cue.tag := by
    rw [List.map_map]
    exact List.map_congr_left fun d _ => applied_tag c.tag d
  refine ⟨tags ▸ h.distinct, fun d hd => ?_, fun d hd hne => ?_, fun d hd he => ?_, fun y hy => ?_⟩
  · obtain ⟨e, he, rfl⟩ := List.mem_map.mp hd
    rw [applied_tag]
    split <;> exact h.counts e he
  · obtain ⟨e, he, rfl⟩ := List.mem_map.mp hd
    rw [applied_tag] at hne
    rw [if_neg fun ht => hne (congrArg some ht.symm)]
    exact h.consistent e he (by simp)
  · obtain ⟨e, he', rfl⟩ := List.mem_map.mp hd
    rw [applied_tag] at he
    rw [if_pos (Option.some.inj he).symm]
    exact ⟨rfl, rfl⟩
  · rw [tags]
    rcases hy with hy | hy
    · exact h.listed y (.inl hy)
    · exact Option.some.inj hy ▸ List.mem_map_of_mem hc

/-- A taken cue that owns a ramp stays, and its record is consistent. -/
theorem CuesOwn.stays (h : CuesOwn (some x) n s.cues) (hx : n x ≠ 0) : CuesOwn none n s.cues := by
  refine ⟨h.distinct, h.counts, fun c hc _ => ?_, fun c _ he => absurd he (by simp), fun y hy => h.listed y ?_⟩
  · by_cases ht : some x = some c.tag
    · obtain ⟨ha, he⟩ := h.applying c hc ht
      obtain rfl := Option.some.inj ht
      refine ⟨fun hw => absurd (hw.symm.trans ha) (by simp), fun _ => ⟨?_, he⟩⟩
      rw [h.counts c hc]
      exact Nat.pos_of_ne_zero hx
    · exact h.consistent c hc ht
  · exact hy.imp_right fun h => absurd h (by simp)

/-- A taken cue that owns no ramp completes at once. -/
theorem CuesOwn.completes (h : CuesOwn (some x) n s.cues) (hx : n x = 0) : CuesOwn none n (s.completeCue x).cues := by
  have clear : CuesOwn none n (s.cues.filter fun d => decide (d.tag ≠ x)) := by
    refine ⟨h.distinct.sublist (List.filter_sublist.map Cue.tag), fun c hc => ?_, fun c hc _ => ?_,
      fun c _ he => absurd he (by simp), fun y hy => ?_⟩
    · exact h.counts c ((List.mem_filter.mp hc).1)
    · refine h.consistent c ((List.mem_filter.mp hc).1) fun he => ?_
      have := (List.mem_filter.mp hc).2
      simp [Option.some.inj he] at this
    · have ne : y ≠ x := by
        rintro rfl
        exact hy.elim (fun h => h hx) (by simp)
      obtain ⟨c, hc, rfl⟩ := List.mem_map.mp (h.listed y (hy.imp_right fun h => absurd h (by simp)))
      exact List.mem_map_of_mem (List.mem_filter.mpr ⟨hc, by simpa using ne⟩)
  cases hf : s.findCue x with
  | none =>
    obtain ⟨c, hc, ht⟩ := List.mem_map.mp (h.listed x (.inr rfl))
    exact absurd ht (findCue_none.mp hf c hc)
  | some c =>
    rw [completeCue_eq hf]
    exact clear.of_cores (map_core_map _ fun d => convert_core x _ d)

end Sys2Proof.Machine
end

section
/-! PROOFS. What a step can do to the crosspoint table, the cue list and the bus counts, and that the counts stay exact (R42, R50, R85, R87). -/

namespace Sys2Proof.Machine

variable {s t : State}

/-! ### Edits (R108 to R118) -/

/-- The owner of the ramp that an edit creates: the cue, when its ramp length is 1 or more (R110, R112). -/
def CueContext.owner (x : CueContext) : Option Byte := if x.rampLength = 0 then none else some x.tag

/-- An edit leaves the table, the cues and these counts alone. -/
structure State.SameTable (t s : State) : Prop where
  xp : t.mix.xp = s.mix.xp
  cues : t.cues = s.cues
  entryCount : ∀ b, (t.bus b).entryCount = (s.bus b).entryCount
  holdCount : ∀ b, (t.bus b).holdCount = (s.bus b).holdCount

/-- The effects an edit can have on the table and the cue list. -/
inductive EditEffect (s : State) (x : CueContext) : State → Prop
  | same {t : State} (h : t.SameTable s) : EditEffect s x t
  | grow {f : Entry} (hn : xpFind s.mix.xp f.channel f.bus = none) (hroom : s.mix.xp.length < 96) (ho : f.owner = x.owner) :
      EditEffect s x (((s.putEntry f).raiseEntries f.bus).ownRamp x)
  | replace {e f : Entry} (he : xpFind s.mix.xp f.channel f.bus = some e) (ho : f.owner = x.owner) :
      EditEffect s x (((s.putEntry f).ownRamp x).loseRamp e (some x.tag))
  | remove {e : Entry} (he : e ∈ s.mix.xp) : EditEffect s x (s.removeEntry e (some x.tag))

theorem sameTable_pushFault (s : State) (f : FaultRecord) : (s.pushFault f).SameTable s := by constructor <;> simp

theorem sameTable_setRoute (s : State) (c : Channel) (r : Route) : (s.setRoute c r).SameTable s := by
  constructor <;> simp [setRoute_bus]

theorem State.SameTable.pushFault (h : t.SameTable s) (f : FaultRecord) : (t.pushFault f).SameTable s :=
  ⟨h.xp, h.cues, h.entryCount, h.holdCount⟩

theorem applyGain_effect (s : State) (x : CueContext) (c : Channel) (b : BusId) (target : Gain) :
    EditEffect s x (s.applyGain x c b target) := by
  unfold State.applyGain
  split
  case h_1 hn =>
    split
    case isTrue room =>
      by_cases h : x.rampLength = 0
      · simp only [h, if_true]
        exact .grow hn room (by simp [Entry.owner, EntryState.ramp, CueContext.owner, h])
      · simp only [h, if_false]
        exact .grow hn room (by simp [Entry.owner, EntryState.ramp, CueContext.owner, h, CueContext.newRamp])
    case isFalse => exact .same (sameTable_pushFault _ _)
  case h_2 e he =>
    obtain ⟨-, rfl, rfl⟩ := xpFind_some he
    by_cases h : x.rampLength = 0
    · simp only [h, if_true]
      exact .replace he (by simp [Entry.owner, EntryState.ramp, CueContext.owner, h])
    · simp only [h, if_false]
      exact .replace he (by simp [Entry.owner, EntryState.ramp, CueContext.owner, h, CueContext.newRamp])

theorem applyDrop_effect (s : State) (x : CueContext) (c : Channel) (b : BusId) : EditEffect s x (s.applyDrop x c b) := by
  unfold State.applyDrop
  split
  case h_1 => exact .same (by constructor <;> intros <;> rfl)
  case h_2 e he =>
    obtain ⟨hmem, rfl, rfl⟩ := xpFind_some he
    split
    case isTrue => exact .remove hmem
    case isFalse h => exact .replace he (by simp [Entry.owner, EntryState.ramp, CueContext.owner, h, CueContext.newRamp])

theorem applyRoute_sameTable (s : State) (x : CueContext) (c : Channel) (b : BusId) : (s.applyRoute x c b).SameTable s := by
  have refl : s.SameTable s := ⟨rfl, rfl, fun _ => rfl, fun _ => rfl⟩
  unfold State.applyRoute
  split
  case h_1 => exact refl
  case h_2 => exact sameTable_setRoute _ _ _
  case h_3 =>
    split
    · exact refl
    · exact (sameTable_setRoute _ _ _).pushFault _
  case h_4 => exact (sameTable_setRoute _ _ _).pushFault _

theorem applyEdit_effect (s : State) (x : CueContext) (e : Edit) : EditEffect s x (s.applyEdit x e) := by
  unfold State.applyEdit
  split
  case isTrue => exact .same (sameTable_pushFault _ _)
  case isFalse =>
    cases e with
    | gain c b target => exact applyGain_effect s x c b target
    | drop c b => exact applyDrop_effect s x c b
    | route c b => exact .same (applyRoute_sameTable s x c b)
    | unroute c b =>
      refine .same ?_
      show (s.applyUnroute c b).SameTable s
      unfold State.applyUnroute
      split
      · exact sameTable_setRoute _ _ _
      · exact ⟨rfl, rfl, fun _ => rfl, fun _ => rfl⟩
    | delay b d =>
      refine .same ?_
      show (s.applyDelay b d).SameTable s
      unfold State.applyDelay
      split <;> exact ⟨rfl, rfl, fun _ => rfl, fun _ => rfl⟩

/-! ### The rule of a taken cue -/

/-- A cue that is taken begins to apply, its edits are applied, and it completes at once if it then owns no ramp (R65, R98, R120). -/
theorem takeCue_rule {P : State → Prop} {Q : Cue → State → Prop} {g : GroupId} {n : FrameNo} {tag : Byte}
    (begin_ : ∀ c, s.findCue tag = some c → Q c (s.beginApplying c))
    (edit : ∀ c v e, c.tag = tag → Q c v → Q c (v.applyEdit { group := g, frame := n, tag := tag, rampLength := c.rampLength } e))
    (stays : ∀ c u, c.tag = tag → Q c u → (∀ d, u.findCue tag = some d → d.outstanding ≠ 0) → P u)
    (completes : ∀ c u d, c.tag = tag → Q c u → u.findCue tag = some d → d.outstanding = 0 → P (u.completeCue tag)) (hs : P s) :
    P (State.takeCue g n s tag) := by
  cases hf : s.findCue tag with
  | none =>
    rw [State.takeCue, hf]
    exact hs
  | some c =>
    have ht := (findCue_some hf).2
    obtain ⟨u, hu⟩ : ∃ u, u = c.edits.foldl
      (fun v e => v.applyEdit { group := g, frame := n, tag := tag, rampLength := c.rampLength } e) (s.beginApplying c) := ⟨_, rfl⟩
    have hq : Q c u := by
      rw [hu]
      exact foldl_preserves (fun v e => edit c v e ht) _ (begin_ c hf)
    have eq : State.takeCue g n s tag = match u.findCue tag with
        | some d => if d.outstanding = 0 then u.completeCue tag else u
        | none => u := by
      rw [State.takeCue, hf, hu, ← ht]
      rfl
    rw [eq]
    split
    case h_1 d hd =>
      split
      case isTrue zero => exact completes c u d ht hq hd zero
      case isFalse pos =>
        refine stays c u ht hq fun e he => ?_
        rw [Option.some.inj (he.symm.trans hd)]
        exact pos
    case h_2 hd => exact stays c u ht hq fun e he => absurd (hd.symm.trans he) (by simp)

/-! ### Which steps touch the ledger -/

/-- The table, the cues' cores and two of the bus counts are as they were. -/
structure State.SameLedger (t s : State) : Prop where
  xp : t.mix.xp = s.mix.xp
  cores : t.SameCores s
  entryCount : ∀ b, (t.bus b).entryCount = (s.bus b).entryCount
  holdCount : ∀ b, (t.bus b).holdCount = (s.bus b).holdCount

theorem sameLedger_of_buses (hxp : t.mix.xp = s.mix.xp) (hbuses : t.mix.buses = s.mix.buses) (hcores : t.SameCores s) :
    t.SameLedger s := by
  have bus (b : BusId) : t.bus b = s.bus b := by simp only [State.bus, hbuses]
  exact ⟨hxp, hcores, fun b => by rw [bus], fun b => by rw [bus]⟩

/-- Nothing stands in the table or in the cue list, and every count is zero, as after either reset. -/
structure State.LedgerEmpty (s : State) : Prop where
  xp : s.mix.xp = []
  cues : s.cues = []
  entryCount : ∀ b, (s.bus b).entryCount = 0
  holdCount : ∀ b, (s.bus b).holdCount = 0

theorem reset_bus (b : BusId) : MixEngine.reset.buses[b] = BusRecord.reset := by
  show (Vector.replicate 16 BusRecord.reset)[b.val] = BusRecord.reset
  rw [Vector.getElem_replicate]

theorem ledgerEmpty_of_reset (hm : s.mix = MixEngine.reset) (hc : s.cues = []) : s.LedgerEmpty := by
  have bus (b : BusId) : s.bus b = BusRecord.reset := by rw [State.bus, hm, reset_bus]
  exact ⟨by rw [hm]; rfl, hc, fun b => by rw [bus]; rfl, fun b => by rw [bus]; rfl⟩

/-- A clip sets the bus's flag and changes no other record (R72). -/
theorem clipBus_bus (s : State) (b c : BusId) :
    (s.clipBus b).bus c = { s.bus c with clip := (s.bus c).clip || decide (b = c) } := by
  unfold State.clipBus
  split
  case isTrue h =>
    by_cases hb : b = c
    · subst hb
      rw [h, Bool.true_or]
      exact congrArg (fun x => { s.bus b with clip := x }) h
    · simp [hb]
  case isFalse h =>
    rw [occur_bus, modifyBus_bus]
    by_cases hb : c = b
    · simp [hb]
    · simp [hb, Ne.symm hb]

/-- The flags after some buses have clipped, one after another. -/
theorem clipBuses_bus (is : List PassBus) (s : State) (b : BusId) : (is.foldl (fun v i => v.clipBus i.bus) s).bus b =
    { s.bus b with clip := (s.bus b).clip || is.any fun i => decide (i.bus = b) } := by
  induction is generalizing s with
  | nil => simp
  | cons i rest ih => simp [ih, clipBus_bus, Bool.or_assoc]

/-- ACCUMULATE touches the clip flag of a bus record alone (R72). -/
theorem accumulate_bus {g : GroupId} (h : exec (.accumulate g) s = .next t) (b : BusId) :
    ∃ clip, t.bus b = { s.bus b with clip := clip } := by
  simp only [exec, execAccumulate, Host.Outcome.next.injEq] at h
  split at h
  case h_1 => exact ⟨(s.bus b).clip, by rw [h]⟩
  case h_2 =>
    subst h
    exact ⟨_, clipBuses_bus _ s b⟩

/-- A property of the ledger that its five operations keep. -/
structure LedgerRule (P : State → Prop) : Prop where
  view : ∀ s t, P s → t.SameLedger s → P t
  empty : ∀ s, s.LedgerEmpty → P s
  retire : ∀ s chosen, P s → P (s.retireInputs chosen)
  enter : ∀ s c, c.state = .waiting → c.outstanding = 0 → s.findCue c.tag = none → s.cues.length < 24 →
    s.poolUsed + c.edits.length ≤ 128 → P s → P (s.enterCue c)
  withdraw : ∀ s tags, P s → P (s.withdrawCues tags)
  take : ∀ g n s x, P s → P (State.takeCue g n s x)
  gain : ∀ g p s, P s → P ((s.mix.xp.filter fun e => s.visits g p e && e.rampEnds).foldl State.endRamp
    (s.setXp (stepTable (s.visits g p) s.mix.xp)))

theorem LedgerRule.effect {P : State → Prop} (r : LedgerRule P) {s u : State} (h : RequestEffect s u) (hs : P s) : P u := by
  cases h
  case retireInputs q i plan l hq hl hd =>
    exact r.retire _ _ (r.view _ _ hs (sameLedger_of_buses rfl rfl rfl))
  case enter p c hp hnew hroom hpool =>
    obtain ⟨hw, -, -, ho, -⟩ := cueOf_some hp
    exact r.enter s c hw ho hnew hroom hpool hs
  case withdraw tags => exact r.withdraw s tags hs
  case settings b group rounding overflow =>
    refine r.view _ _ hs ⟨by simp, by simp [State.SameCores], fun c => ?_, fun c => ?_⟩
    all_goals
      rw [modifyBus_bus]
      split
      case isTrue h => rw [h]
      case isFalse => rfl
  case clips mask =>
    refine r.view _ _ hs ⟨rfl, rfl, fun c => ?_, fun c => ?_⟩
    all_goals rw [clearClips_bus]
  case free c hc => exact r.view _ _ hs ⟨by simp, by simp [State.SameCores], by simp [setRoute_bus], by simp [setRoute_bus]⟩
  case retireOutputs q i plan l hq hl hd =>
    refine foldl_preserves (P := P) (fun v c hv => ?_) _ ?_
    · exact r.view _ _ hv ⟨by simp, by simp [State.SameCores], by simp [setRoute_bus], by simp [setRoute_bus]⟩
    · exact r.view _ _ hs (sameLedger_of_buses (by simp) (by simp) (by simp [State.SameCores]))
  all_goals exact r.view _ _ hs (sameLedger_of_buses (by simp [State.addLine]) (by simp [State.addLine])
    (by simp [State.SameCores, State.addLine]))

theorem LedgerRule.link {P : State → Prop} (r : LedgerRule P) : LinkFree P :=
  fun _ _ hs => r.view _ _ hs ⟨rfl, rfl, fun _ => rfl, fun _ => rfl⟩

theorem LedgerRule.exec {P : State → Prop} (r : LedgerRule P) {c : Instr} {s t : State} (h : exec c s = .next t) (hs : P s) : P t := by
  by_cases hr : ∃ q, requestOf c = some q
  case pos =>
    obtain ⟨q, hr⟩ := hr
    exact request_preserves r.link (fun _ _ => r.effect) (fun v _ => r.empty _ (ledgerEmpty_of_reset rfl rfl)) hr h hs
  case neg =>
    have lanes (k : t.KeepsBeyondLanes s) : P t :=
      r.view _ _ hs (sameLedger_of_buses k.xp k.buses (congrArg (List.map Cue.core) k.cues))
    have memory (k : t.KeepsBeyondMemory s) : P t := r.view _ _ hs (sameLedger_of_buses k.xp k.buses k.cores)
    cases c
    case transferBegin => obtain ⟨l, rfl, -⟩ := transferBegin_link h; exact r.link s l hs
    case twoWireWriteAddress => obtain ⟨l, rfl, -⟩ := twoWireWriteAddress_link h; exact r.link s l hs
    case transferEnd => obtain ⟨l, rfl, -⟩ := transferEnd_link h; exact r.link s l hs
    case outgoingFrameComplete => obtain ⟨l, rfl, -⟩ := outgoingFrameComplete_link h; exact r.link s l hs
    case hardwareReset => cases h; exact r.empty _ (ledgerEmpty_of_reset rfl rfl)
    case resetRelease =>
      obtain rfl | ⟨-, rfl⟩ := resetRelease_cases h
      · exact hs
      · exact r.view _ _ hs (sameLedger_of_buses rfl rfl rfl)
    case wordSelectEdge => exact lanes (wordSelectEdge_keeps h)
    case wordComplete => exact lanes (wordComplete_keeps h)
    case lossTimerExpiry => exact lanes (lossTimerExpiry_keeps h)
    case frameStart => exact lanes (frameStart_keeps h)
    case exchangeVisit => exact memory (exchangeVisit_keeps h).1
    case passReadOffer => exact memory (passReadOffer_keeps h).1
    case passWriteOffer => exact memory (passWriteOffer_keeps h).1
    case dramReadComplete => exact memory (dramReadComplete_keeps h).1
    case dramWriteComplete => exact memory (dramWriteComplete_keeps h).1
    case refreshDue => exact memory (refreshDue_keeps h).1
    case refreshComplete => exact memory (refreshComplete_keeps h).1
    case clearWrite => exact memory (clearWrite_keeps h).1
    case pinEdge =>
      obtain ⟨-, -, -, -, -, hmix, hcores, -⟩ := pinEdge_keeps h
      exact r.view _ _ hs (sameLedger_of_buses (by rw [hmix]) (by rw [hmix]) hcores)
    case cueStart g =>
      simp only [Sys2Proof.Machine.exec, execCueStart, Host.Outcome.next.injEq] at h
      split at h
      case h_1 => exact h ▸ hs
      case h_2 p _ =>
        have taken : P ((s.dueTags g p.frame).foldl (State.takeCue g p.frame) s) := foldl_preserves (r.take g p.frame) _ hs
        split at h
        · exact h ▸ r.view _ _ taken (sameLedger_of_buses (by simp) (by simp) (by simp [State.SameCores]))
        · exact h ▸ r.view _ _ taken (sameLedger_of_buses (by simp) (by simp) (by simp [State.SameCores]))
    case gainStep g =>
      simp only [Sys2Proof.Machine.exec, execGainStep, Host.Outcome.next.injEq] at h
      split at h
      case h_1 => exact h ▸ hs
      case h_2 p _ =>
        exact h ▸ r.view _ _ (r.gain g p s hs) (sameLedger_of_buses (by simp) (by simp) (by simp [State.SameCores]))
    case accumulate g =>
      obtain ⟨-, -, hxp, -, hcues, -⟩ := accumulate_keeps h
      have bus := accumulate_bus h
      refine r.view _ _ hs ⟨hxp, congrArg (List.map Cue.core) hcues, fun b => ?_, fun b => ?_⟩
      · obtain ⟨clip, hb⟩ := bus b
        rw [hb]
      · obtain ⟨clip, hb⟩ := bus b
        rw [hb]
    all_goals exact absurd ⟨_, rfl⟩ hr

/-- A rule's property is kept by every step. -/
theorem LedgerRule.step {P : State → Prop} (r : LedgerRule P) {s t : State} (h : step s = .next t) (hs : P s) : P t :=
  step_preserves (fun _ _ hv => r.view _ _ hv (sameLedger_of_buses rfl rfl rfl)) (fun _ _ _ => r.exec) h hs

end Sys2Proof.Machine
end

section
/-! PROOFS. The five operations of the ledger in terms of the table and the bus counts, and the entry counts and ramp counts they keep exact (R42, R45, R85). -/

namespace Sys2Proof.Machine

variable {s t : State}

/-! ### Retired inputs (R13, R59) -/

/-- The state whose chosen capture registers and input slots are empty (R13, R27). -/
def State.emptyInputs (s : State) (chosen : Channel → Bool) : State :=
  let t := s.emptyCapture chosen
  { t with word := { t.word with inSlot := fillWhere t.word.inSlot chosen 0 } }

@[simp] theorem emptyInputs_frame (s : State) (chosen : Channel → Bool) :
    (s.emptyInputs chosen).mix = s.mix ∧ (s.emptyInputs chosen).cues = s.cues ∧ (s.emptyInputs chosen).link = s.link := by
  simp [State.emptyInputs]

theorem retireInputs_eq (s : State) (chosen : Channel → Bool) : s.retireInputs chosen =
    (s.mix.xp.filter fun e => chosen e.channel).foldl (fun v e => v.removeEntry e none) (s.emptyInputs chosen) := rfl

theorem retireInputs_xp (s : State) (chosen : Channel → Bool) :
    (s.retireInputs chosen).mix.xp = s.mix.xp.filter fun e => !chosen e.channel := by
  rw [retireInputs_eq, removeEntries_xp]
  refine List.filter_congr fun e he => ?_
  rw [Bool.eq_iff_iff, decide_eq_true_iff, Bool.not_eq_true', ← Bool.not_eq_true]
  constructor
  · intro h hc
    exact h e (List.mem_filter.mpr ⟨he, hc⟩) ⟨rfl, rfl⟩
  · rintro h f hf ⟨hc, -⟩
    rw [hc] at h
    exact h (List.mem_filter.mp hf).2

theorem retireInputs_bus (s : State) (chosen : Channel → Bool) (b : BusId) : (s.retireInputs chosen).bus b =
    { s.bus b with entryCount := (s.bus b).entryCount - (s.mix.xp.filter fun e => chosen e.channel && decide (e.bus = b)).length } := by
  rw [retireInputs_eq, removeEntries_bus, List.filter_filter]
  simp only [Bool.and_comm]
  rfl

/-- Of the cues, the link and the passes, a removal does what the loss of its entry's ramp does (R50). -/
theorem removeEntry_losesRamp : LosesRamp fun v e => v.removeEntry e none := by
  intro v e
  obtain ⟨hc, hl⟩ := loseRamp_congr (s := v) (t := (v.setXp (xpRemove v.mix.xp e.channel e.bus)).lowerEntries e.bus)
    (by simp) (by simp) (by simp) e none
  exact ⟨hc, hl, by simp⟩

/-! ### The gain step (R50, R67, R68) -/

theorem endRamp_losesRamp : LosesRamp State.endRamp := by
  intro v e
  obtain ⟨hc, hl⟩ := loseRamp_congr (s := v) (t := if e.step.isNone then v.lowerEntries e.bus else v)
    (by split <;> simp) (by split <;> simp) (by split <;> simp) e none
  exact ⟨hc, hl, by simp⟩

theorem endRamp_bus (s : State) (e : Entry) (b : BusId) : (s.endRamp e).bus b =
    { s.bus b with entryCount := (s.bus b).entryCount - if e.step.isNone && decide (e.bus = b) then 1 else 0 } := by
  have lose (v : State) : (v.loseRamp e none).bus b = v.bus b := bus_congr (by simp) b
  rw [State.endRamp, lose]
  cases e.step.isNone with
  | false => rfl
  | true =>
    rw [if_pos rfl, State.lowerEntries, modifyBus_bus]
    by_cases h : b = e.bus
    · subst h
      simp
    · simp [h, Ne.symm h]

/-- The entry counts after some ramps have ended, one after another. -/
theorem endRamps_bus (ended : List Entry) (s : State) (b : BusId) : (ended.foldl State.endRamp s).bus b =
    { s.bus b with entryCount := (s.bus b).entryCount - ended.countP fun e => e.step.isNone && decide (e.bus = b) } := by
  induction ended generalizing s with
  | nil => rfl
  | cons e rest ih => rw [List.foldl_cons, ih, endRamp_bus, List.countP_cons, Nat.sub_sub, Nat.add_comm]

/-- An entry keeps its place over a gain step. -/
theorem step_place {e f : Entry} (h : e.step = some f) : f.channel = e.channel ∧ f.bus = e.bus := by
  unfold Entry.step at h
  split at h
  case h_1 => cases h; exact ⟨rfl, rfl⟩
  case h_2 => cases h; split <;> exact ⟨rfl, rfl⟩
  case h_3 =>
    split at h
    · cases h
    · cases h; exact ⟨rfl, rfl⟩

/-- An entry leaves at a gain step only when its ramp ends (R68). -/
theorem rampEnds_of_step_none {e : Entry} (h : e.step = none) : e.rampEnds = true := by
  unfold Entry.step at h
  split at h
  case h_1 => cases h
  case h_2 => cases h
  case h_3 r hr =>
    split at h
    case isTrue ends => simpa [Entry.rampEnds, hr, EntryState.ramp] using ends
    case isFalse => cases h

/-- A ramp that ends leaves no owner. -/
theorem step_owner_of_ends {e f : Entry} (h : e.step = some f) (ends : e.rampEnds = true) : f.owner = none := by
  unfold Entry.step at h
  split at h
  case h_1 hs => simp [Entry.rampEnds, hs, EntryState.ramp] at ends
  case h_2 r hs =>
    have : r.ends = true := by simpa [Entry.rampEnds, hs, EntryState.ramp] using ends
    rw [if_pos this] at h
    cases h
    rfl
  case h_3 r hs =>
    have : r.ends = true := by simpa [Entry.rampEnds, hs, EntryState.ramp] using ends
    rw [if_pos this] at h
    cases h

/-- Any other ramp keeps its owner. -/
theorem step_owner_of_goes_on {e : Entry} (goes : e.rampEnds = false) : ∃ f, e.step = some f ∧ f.owner = e.owner := by
  unfold Entry.step
  split
  case h_1 => exact ⟨e, rfl, rfl⟩
  case h_2 r hs =>
    have : r.ends = false := by simpa [Entry.rampEnds, hs, EntryState.ramp] using goes
    rw [this]
    exact ⟨_, rfl, by simp [Entry.owner, hs, EntryState.ramp, Ramp.step]⟩
  case h_3 r hs =>
    have : r.ends = false := by simpa [Entry.rampEnds, hs, EntryState.ramp] using goes
    rw [this]
    exact ⟨_, rfl, by simp [Entry.owner, hs, EntryState.ramp, Ramp.step]⟩

/-- Entries that keep their places stay in order. -/
theorem inOrder_filterMap {xp : List Entry} (h : InOrder xp) {f : Entry → Option Entry}
    (place : ∀ e d, f e = some d → d.channel = e.channel ∧ d.bus = e.bus) : InOrder (xp.filterMap f) := by
  refine List.Pairwise.filterMap f (fun a a' hlt b hb b' hb' => ?_) h
  obtain ⟨hc, hu⟩ := place a b hb
  obtain ⟨hc', hu'⟩ := place a' b' hb'
  rw [hc, hu, hc', hu']
  exact hlt

theorem inOrder_stepTable {xp : List Entry} (h : InOrder xp) (visited : Entry → Bool) : InOrder (stepTable visited xp) := by
  refine inOrder_filterMap h fun e d hd => ?_
  split at hd
  · exact step_place hd
  · cases hd
    exact ⟨rfl, rfl⟩

/-- The entries of a bus after a gain step, with those that have left. -/
theorem stepTable_bus (visited : Entry → Bool) (xp : List Entry) (b : BusId) :
    (stepTable visited xp).countP (fun e => decide (e.bus = b)) +
      (xp.filter fun e => visited e && e.rampEnds).countP (fun e => e.step.isNone && decide (e.bus = b)) =
    xp.countP fun e => decide (e.bus = b) := by
  have regroup : (xp.filter fun e => visited e && e.rampEnds).countP (fun e => e.step.isNone && decide (e.bus = b)) =
      (xp.filter fun e => visited e && e.step.isNone).countP fun e => decide (e.bus = b) := by
    rw [List.countP_filter, List.countP_filter]
    refine List.countP_congr fun e _ => ?_
    cases hs : e.step with
    | none => simp [rampEnds_of_step_none hs, and_comm]
    | some f => simp
  rw [regroup]
  refine countP_filterMap_add xp fun e _ => ?_
  cases hv : visited e with
  | false => simp
  | true =>
    cases hs : e.step with
    | none => simp
    | some f => simp [(step_place hs).2, List.countP_cons]

/-- The ramps of a tag after a gain step, with those that have ended. -/
theorem stepTable_ramps (visited : Entry → Bool) (xp : List Entry) (x : Byte) :
    ramps (stepTable visited xp) x + ramps (xp.filter fun e => visited e && e.rampEnds) x = ramps xp x := by
  refine countP_filterMap_add xp fun e _ => ?_
  cases hv : visited e with
  | false => simp
  | true =>
    cases he : e.rampEnds with
    | true =>
      cases hs : e.step with
      | none => simp
      | some f => simp [step_owner_of_ends hs he]
    | false =>
      obtain ⟨f, hs, ho⟩ := step_owner_of_goes_on he
      simp [hs, ho, List.countP_cons]

/-! ### Withdrawn cues (R101, R121) -/

/-- Ramps of several owners are frozen one after another. -/
theorem freezes_eq (cs : List Cue) (xp : List Entry) : cs.foldl (fun xp c => xp.map (Entry.freeze c.tag)) xp =
    xp.map fun e => if ∃ c ∈ cs, e.owner = some c.tag then { e with state := .steady } else e := by
  induction cs generalizing xp with
  | nil => simp
  | cons c rest ih =>
    rw [List.foldl_cons, ih, List.map_map]
    refine List.map_congr_left fun e _ => ?_
    by_cases h : e.owner = some c.tag
    · have frozen : e.freeze c.tag = { e with state := .steady } := if_pos h
      have ownerless : (e.freeze c.tag).owner = none := by rw [frozen]; rfl
      rw [Function.comp_apply, ownerless, if_neg (by simp), frozen, if_pos ⟨c, List.mem_cons_self, h⟩]
    · have kept : e.freeze c.tag = e := if_neg h
      rw [Function.comp_apply, kept]
      simp only [List.mem_cons, exists_eq_or_imp, h, false_or]

theorem withdrawCues_xp (s : State) (tags : List Byte) : (s.withdrawCues tags).mix.xp =
    s.mix.xp.map fun e => if ∃ c ∈ s.cues, c.tag ∈ tags ∧ c.state = .applying ∧ e.owner = some c.tag
      then { e with state := .steady } else e := by
  simp only [State.withdrawCues]
  rw [freezes_eq]
  have gone (e : Entry) : (∃ c ∈ (s.cues.filter fun c => decide (c.tag ∈ tags)).filter fun c => decide (c.state = .applying),
      e.owner = some c.tag) ↔ ∃ c ∈ s.cues, c.tag ∈ tags ∧ c.state = .applying ∧ e.owner = some c.tag := by
    simp only [List.mem_filter, decide_eq_true_eq, and_assoc]
  simp only [gone, setXp_xp, releaseHolds_frame]

theorem withdrawCues_bus (s : State) (tags : List Byte) (b : BusId) : (s.withdrawCues tags).bus b =
    { s.bus b with holdCount := (s.bus b).holdCount -
      (((s.cues.filter fun c => decide (c.tag ∈ tags)).flatMap Cue.edits).filter fun e => decide (e.bus = b)).length } :=
  releaseHolds_bus s _ b

theorem inOrder_map {xp : List Entry} (h : InOrder xp) {f : Entry → Entry} (place : ∀ e, (f e).channel = e.channel ∧ (f e).bus = e.bus) :
    InOrder (xp.map f) := by
  rw [InOrder, List.pairwise_map]
  refine h.imp fun {a b} hlt => ?_
  rw [(place a).1, (place a).2, (place b).1, (place b).2]
  exact hlt

/-! ### Entry counts (O55) -/

/-- The table is in order, and every entry count counts its bus's entries (R42). -/
abbrev State.EntriesExact (s : State) : Prop :=
  InOrder s.mix.xp ∧ ∀ b, (s.bus b).entryCount = s.mix.xp.countP fun e => decide (e.bus = b)

theorem loseRamp_bus (s : State) (e : Entry) (ap : Option Byte) (b : BusId) : (s.loseRamp e ap).bus b = s.bus b :=
  bus_congr (by simp) b

theorem ownRamp_bus (s : State) (x : CueContext) (b : BusId) : (s.ownRamp x).bus b = s.bus b := bus_congr (by simp) b

theorem edit_entriesExact {x : CueContext} (h : EditEffect s x t) (hs : s.EntriesExact) : t.EntriesExact := by
  obtain ⟨order, exact_⟩ := hs
  cases h
  case same h =>
    rw [State.EntriesExact, h.xp]
    exact ⟨order, fun b => (h.entryCount b).trans (exact_ b)⟩
  case grow f hn hroom ho =>
    refine ⟨by simpa [State.putEntry] using inOrder_put order f, fun b => ?_⟩
    have count := countP_put order (fun e => decide (e.bus = b)) f
    rw [hn] at count
    simp only [Option.toList, List.countP_nil, Nat.add_zero, List.countP_singleton, decide_eq_true_eq] at count
    have hxp : (((s.putEntry f).raiseEntries f.bus).ownRamp x).mix.xp = xpPut f s.mix.xp := by simp [State.putEntry]
    rw [hxp, count, ownRamp_bus, State.raiseEntries, modifyBus_bus]
    have bus (c : BusId) : (s.putEntry f).bus c = s.bus c := rfl
    by_cases hb : b = f.bus
    · subst hb
      simp [bus, exact_]
    · simp [bus, hb, Ne.symm hb, exact_]
  case replace e f he ho =>
    have count (b : BusId) := countP_put order (fun e => decide (e.bus = b)) f
    obtain ⟨-, -, hbus⟩ := xpFind_some he
    rw [he] at count
    simp only [Option.toList, List.countP_singleton, hbus] at count
    have hxp : (((s.putEntry f).ownRamp x).loseRamp e (some x.tag)).mix.xp = xpPut f s.mix.xp := by simp [State.putEntry]
    rw [State.EntriesExact, hxp]
    refine ⟨inOrder_put order f, fun b => ?_⟩
    rw [loseRamp_bus, ownRamp_bus]
    have := count b
    rw [show (s.putEntry f).bus b = s.bus b from rfl, exact_]
    omega
  case remove e he =>
    rw [State.EntriesExact, removeEntry_xp]
    refine ⟨inOrder_filter order _, fun b => ?_⟩
    have count := countP_remove order (fun e => decide (e.bus = b)) he
    rw [removeEntry_bus]
    simp only [List.countP_singleton, decide_eq_true_eq] at count
    have before := exact_ b
    by_cases hb : b = e.bus
    · rw [if_pos hb]
      rw [if_pos hb.symm] at count
      show (s.bus b).entryCount - 1 = _
      omega
    · rw [if_neg hb]
      rw [if_neg (Ne.symm hb)] at count
      omega

theorem entriesExact_rule : LedgerRule State.EntriesExact where
  view s t hs h := by
    rw [State.EntriesExact, h.xp]
    exact ⟨hs.1, fun b => (h.entryCount b).trans (hs.2 b)⟩
  empty s h := by
    rw [State.EntriesExact, h.xp]
    exact ⟨List.Pairwise.nil, h.entryCount⟩
  retire s chosen hs := by
    rw [State.EntriesExact, retireInputs_xp]
    refine ⟨inOrder_filter hs.1 _, fun b => ?_⟩
    have count := countP_filter_add (fun e => decide (e.bus = b)) (fun e => chosen e.channel) s.mix.xp
    rw [retireInputs_bus]
    show (s.bus b).entryCount - _ = _
    have regroup : (s.mix.xp.filter fun e => chosen e.channel && decide (e.bus = b)).length =
        (s.mix.xp.filter fun e => chosen e.channel).countP fun e => decide (e.bus = b) := by
      rw [List.countP_filter, List.countP_eq_length_filter]
      simp only [Bool.and_comm]
    have before := hs.2 b
    omega
  enter s c hw ho hnew hroom hpool hs := by
    have hxp : (s.enterCue c).mix.xp = s.mix.xp := by simp [State.enterCue]
    rw [State.EntriesExact, hxp]
    refine ⟨hs.1, fun b => ?_⟩
    rw [show (s.enterCue c).bus b = (s.takeHolds c.edits).bus b from rfl, takeHolds_bus]
    exact hs.2 b
  withdraw s tags hs := by
    rw [State.EntriesExact, withdrawCues_xp]
    refine ⟨inOrder_map hs.1 fun e => by split <;> exact ⟨rfl, rfl⟩, fun b => ?_⟩
    rw [withdrawCues_bus, List.countP_map]
    refine (hs.2 b).trans (List.countP_congr fun e _ => ?_)
    simp only [Function.comp_apply]
    split <;> rfl
  take g n s x hs := by
    refine takeCue_rule (P := State.EntriesExact) (Q := fun _ => State.EntriesExact) (fun c _ => ?_)
      (fun c v e _ hv => edit_entriesExact (applyEdit_effect v _ e) hv) (fun c u _ hu _ => hu) (fun c u d _ hu _ _ => ?_) hs
    · have hxp : (s.beginApplying c).mix.xp = s.mix.xp := by simp [State.beginApplying]
      rw [State.EntriesExact, hxp]
      refine ⟨hs.1, fun b => ?_⟩
      rw [State.beginApplying, modifyCue_bus, releaseHolds_bus]
      exact hs.2 b
    · have hmix : (u.completeCue x).mix = u.mix := by simp
      rw [State.EntriesExact, hmix]
      exact ⟨hu.1, fun b => (bus_congr hmix b).symm ▸ hu.2 b⟩
  gain g p s hs := by
    have hxp : ((s.mix.xp.filter fun e => s.visits g p e && e.rampEnds).foldl State.endRamp
        (s.setXp (stepTable (s.visits g p) s.mix.xp))).mix.xp = stepTable (s.visits g p) s.mix.xp := by simp [endRamps_frame]
    rw [State.EntriesExact, hxp]
    refine ⟨inOrder_stepTable hs.1 _, fun b => ?_⟩
    rw [endRamps_bus]
    have := stepTable_bus (s.visits g p) s.mix.xp b
    show (s.bus b).entryCount - _ = _
    have before := hs.2 b
    omega

/-- Settles O55: the four operations that put in, take out or replace an entry move its bus's count with it. -/
theorem stepKeepsEntryCounts : Obligations.StepKeepsEntryCounts := by
  rintro s t ⟨order, counts⟩ h
  have kept := entriesExact_rule.step h ⟨order, fun b => (counts b).trans (entriesOn_eq s b)⟩
  exact ⟨kept.1, fun b => (kept.2 b).trans (entriesOn_eq t b).symm⟩

end Sys2Proof.Machine
end

section
/-! PROOFS. The ramp counts stay exact (R45, R50, R85). -/

namespace Sys2Proof.Machine

variable {s t : State}

/-- The table is in order, and the cues' counts are those of its ramps; `ap` is the tag of a cue that is being applied. -/
abbrev State.RampsExact (s : State) (ap : Option Byte) : Prop := InOrder s.mix.xp ∧ CuesOwn ap (ramps s.mix.xp) s.cues

theorem ramps_le_of_mem {xp : List Entry} {e : Entry} (he : e ∈ xp) (y : Byte) : ramps [e] y ≤ ramps xp y :=
  (List.singleton_sublist.mpr he).countP_le

/-- A cue being applied owns the ramp of its new entry, if it has one. -/
theorem CuesOwn.ownRamp {x : CueContext} {n : Byte → Nat} {f : Entry} (h : CuesOwn (some x.tag) n s.cues) (ho : f.owner = x.owner) :
    CuesOwn (some x.tag) (fun y => n y + ramps [f] y) (s.ownRamp x).cues := by
  unfold State.ownRamp
  rw [CueContext.owner] at ho
  split
  case isTrue zero =>
    rw [if_pos zero] at ho
    simpa [ramps_singleton, ho] using h
  case isFalse pos =>
    rw [if_neg pos] at ho
    simpa only [ramps_singleton, ho, Option.some.injEq, eq_comm] using h.raiseRamps

theorem edit_rampsExact {x : CueContext} (h : EditEffect s x t) (hs : s.RampsExact (some x.tag)) : t.RampsExact (some x.tag) := by
  obtain ⟨order, own⟩ := hs
  cases h
  case same h =>
    rw [State.RampsExact, h.xp, h.cues]
    exact ⟨order, own⟩
  case grow f hn hroom ho =>
    have hxp : (((s.putEntry f).raiseEntries f.bus).ownRamp x).mix.xp = xpPut f s.mix.xp := by simp [State.putEntry]
    have count (y : Byte) : ramps (xpPut f s.mix.xp) y = ramps s.mix.xp y + ramps [f] y := by
      have := countP_put order (fun e => decide (e.owner = some y)) f
      rw [hn] at this
      exact this
    rw [State.RampsExact, hxp, funext count]
    exact ⟨inOrder_put order f, CuesOwn.ownRamp (s := (s.putEntry f).raiseEntries f.bus) (by simpa using own) ho⟩
  case replace e f he ho =>
    have hxp : (((s.putEntry f).ownRamp x).loseRamp e (some x.tag)).mix.xp = xpPut f s.mix.xp := by simp [State.putEntry]
    have count (y : Byte) : ramps (xpPut f s.mix.xp) y = ramps s.mix.xp y + ramps [f] y - ramps [e] y := by
      have := countP_put order (fun d => decide (d.owner = some y)) f
      rw [he] at this
      exact Nat.eq_sub_of_add_eq this
    rw [State.RampsExact, hxp, funext count]
    have owned := CuesOwn.ownRamp (s := s.putEntry f) (by simpa using own) ho
    exact ⟨inOrder_put order f, owned.loseRamp fun y => Nat.le_add_right_of_le (ramps_le_of_mem (xpFind_some he).1 y)⟩
  case remove e he =>
    have count (y : Byte) : ramps (xpRemove s.mix.xp e.channel e.bus) y = ramps s.mix.xp y - ramps [e] y :=
      Nat.eq_sub_of_add_eq (countP_remove order (fun d => decide (d.owner = some y)) he)
    rw [State.RampsExact, removeEntry_xp, funext count]
    exact ⟨inOrder_filter order _, CuesOwn.loseRamp (s := (s.setXp (xpRemove s.mix.xp e.channel e.bus)).lowerEntries e.bus)
      (by simpa using own) (ramps_le_of_mem he)⟩

theorem rampsExact_rule : LedgerRule fun s => s.RampsExact none where
  view s t hs h := by
    rw [State.RampsExact, h.xp]
    exact ⟨hs.1, hs.2.of_cores h.cores⟩
  empty s h := by
    rw [State.RampsExact, h.xp, h.cues]
    exact ⟨List.Pairwise.nil, by constructor <;> simp [ramps]⟩
  retire s chosen hs := by
    have count (y : Byte) : ramps (s.mix.xp.filter fun e => !chosen e.channel) y =
        ramps s.mix.xp y - ramps (s.mix.xp.filter fun e => chosen e.channel) y :=
      Nat.eq_sub_of_add_eq (countP_filter_add _ (fun e => chosen e.channel) s.mix.xp)
    have own : CuesOwn none (ramps s.mix.xp) (s.emptyInputs chosen).cues := by simpa using hs.2
    rw [State.RampsExact, retireInputs_xp, funext count, retireInputs_eq]
    exact ⟨inOrder_filter hs.1 _, own.loseRamps (fun v e => (removeEntry_losesRamp v e).1) fun y => List.filter_sublist.countP_le⟩
  enter s c hw ho hnew hroom hpool hs := by
    have hxp : (s.enterCue c).mix.xp = s.mix.xp := by simp [State.enterCue]
    rw [State.RampsExact, hxp]
    exact ⟨hs.1, hs.2.enter hw ho hnew⟩
  withdraw s tags hs := by
    rw [State.RampsExact, withdrawCues_xp]
    refine ⟨inOrder_map hs.1 fun e => by split <;> exact ⟨rfl, rfl⟩, ?_⟩
    have count (y : Byte) : ramps (s.mix.xp.map fun e =>
        if ∃ c ∈ s.cues, c.tag ∈ tags ∧ c.state = .applying ∧ e.owner = some c.tag then { e with state := .steady } else e) y =
        if y ∈ tags then 0 else ramps s.mix.xp y := by
      rw [ramps, List.countP_map]
      split
      case isTrue gone =>
        refine List.countP_eq_zero.mpr fun e he => ?_
        simp only [Function.comp_apply, decide_eq_true_eq]
        split
        case isTrue => simp [Entry.owner, EntryState.ramp]
        case isFalse stays =>
          intro ho
          obtain ⟨c, hc, rfl⟩ := List.mem_map.mp (hs.2.listed y (.inl (Nat.ne_of_gt (ramps_pos.mpr ⟨e, he, ho⟩))))
          refine stays ⟨c, hc, gone, ?_, ho⟩
          cases hstate : c.state with
          | applying => rfl
          | waiting =>
            have := (hs.2.consistent c hc (by simp)).1 hstate
            rw [hs.2.counts c hc] at this
            exact absurd this (Nat.ne_of_gt (ramps_pos.mpr ⟨e, he, ho⟩))
      case isFalse kept =>
        refine List.countP_congr fun e _ => ?_
        simp only [Function.comp_apply, decide_eq_true_eq]
        split
        case isTrue frozen =>
          obtain ⟨c, -, hc, -, ho⟩ := frozen
          refine iff_of_false (by simp [Entry.owner, EntryState.ramp]) fun h => ?_
          rw [ho] at h
          exact kept (Option.some.inj h ▸ hc)
        case isFalse => rfl
    rw [funext count]
    exact hs.2.withdraw tags
  take g n s x hs := by
    refine takeCue_rule (P := fun u => u.RampsExact none) (Q := fun _ u => u.RampsExact (some x)) (fun c hc => ?_)
      (fun c v e _ hv => edit_rampsExact (applyEdit_effect v _ e) hv) (fun c u _ hu pos => ⟨hu.1, hu.2.stays ?_⟩)
      (fun c u d _ hu hd zero => ?_) hs
    · obtain ⟨hmem, rfl⟩ := findCue_some hc
      have hxp : (s.beginApplying c).mix.xp = s.mix.xp := by simp [State.beginApplying]
      rw [State.RampsExact, hxp]
      exact ⟨hs.1, hs.2.begin hmem⟩
    · obtain ⟨d, hd, rfl⟩ := List.mem_map.mp (hu.2.listed x (.inr rfl))
      rw [← hu.2.counts d hd]
      exact pos d (findCue_eq hu.2.distinct hd)
    · have hmix : (u.completeCue x).mix = u.mix := by simp
      obtain ⟨hmem, rfl⟩ := findCue_some hd
      rw [State.RampsExact, hmix]
      exact ⟨hu.1, hu.2.completes ((hu.2.counts d hmem).symm.trans zero)⟩
  gain g p s hs := by
    have hxp : ((s.mix.xp.filter fun e => s.visits g p e && e.rampEnds).foldl State.endRamp
        (s.setXp (stepTable (s.visits g p) s.mix.xp))).mix.xp = stepTable (s.visits g p) s.mix.xp := by simp [endRamps_frame]
    have count (y : Byte) : ramps (stepTable (s.visits g p) s.mix.xp) y =
        ramps s.mix.xp y - ramps (s.mix.xp.filter fun e => s.visits g p e && e.rampEnds) y :=
      Nat.eq_sub_of_add_eq (stepTable_ramps (s.visits g p) s.mix.xp y)
    rw [State.RampsExact, hxp, funext count]
    exact ⟨inOrder_stepTable hs.1 _, CuesOwn.loseRamps (s := s.setXp (stepTable (s.visits g p) s.mix.xp))
      (fun v e => (endRamp_losesRamp v e).1) hs.2 fun y => List.filter_sublist.countP_le⟩

/-- Settles O56: every operation on the table moves the counts of the cues whose ramps it makes, ends or freezes. -/
theorem stepKeepsRampCounts : Obligations.StepKeepsRampCounts := by
  rintro s t ⟨order, distinct, counts⟩ h
  obtain ⟨order', own⟩ := rampsExact_rule.step h ⟨order, (cuesOwn_iff s).mp ⟨distinct, counts⟩⟩
  exact ⟨order', (cuesOwn_iff t).mpr own⟩

end Sys2Proof.Machine
end

section
/-! PROOFS. The hold counts stay those of the edit pool, and the cue list only shrinks when ramps are lost (R42, R85, R87). -/

namespace Sys2Proof.Machine

variable {s t : State} {ap : Option Byte} {c : Cue}

/-! ### What a cue stays the same cue by -/

/-- A cue's core without its count, which the loss of ramps changes. -/
def Cue.ident (c : Cue) : Cue := { c.core with outstanding := 0 }

theorem ident_of_core {c d : Cue} (h : c.core = d.core) : c.ident = d.ident := congrArg (fun x : Cue => { x with outstanding := 0 }) h

/-- Whatever is read off a cue without its count, trigger and flags is the same in both lists. -/
theorem map_eq_of_idents {α : Type} {cs ds : List Cue} (h : ds.map Cue.ident = cs.map Cue.ident) (f : Cue → α)
    (hf : ∀ c, f c.ident = f c) : ds.map f = cs.map f := by
  have lift (cs : List Cue) : cs.map f = (cs.map Cue.ident).map f := by
    rw [List.map_map]
    exact List.map_congr_left fun c _ => (hf c).symm
  rw [lift, lift cs, h]

theorem map_ident_map (cs : List Cue) {f : Cue → Cue} (hf : ∀ c, (f c).ident = c.ident) :
    (cs.map f).map Cue.ident = cs.map Cue.ident := by
  rw [List.map_map]
  exact List.map_congr_left fun c _ => hf c

theorem lowered_ident (x : Byte) (cues : List Cue) : (lowered x cues).map Cue.ident = cues.map Cue.ident :=
  map_ident_map cues fun c => by split <;> rfl

theorem ownRamp_idents (s : State) (x : CueContext) : (s.ownRamp x).cues.map Cue.ident = s.cues.map Cue.ident := by
  unfold State.ownRamp
  split
  · rfl
  · exact map_ident_map s.cues fun c => by split <;> rfl

/-- A lost ramp leaves every cue in the list, or takes out its owner, which was APPLYING (R50, R113). -/
theorem loseRamp_idents (s : State) (e : Entry) (ap : Option Byte) :
    (s.loseRamp e ap).cues.map Cue.ident = s.cues.map Cue.ident ∨
    ∃ c, s.findCue c.tag = some c ∧ c.state = .applying ∧ ap ≠ some c.tag ∧
      (s.loseRamp e ap).cues.map Cue.ident = (s.cues.filter fun d => decide (d.tag ≠ c.tag)).map Cue.ident := by
  cases ho : e.owner with
  | none => exact .inl (by rw [loseRamp_none ho])
  | some x =>
    rw [loseRamp_some ho]
    obtain ⟨c, ⟨hx, hmay, ha, -⟩, eq⟩ | ⟨-, eq⟩ := lowerRamps_cases s x (decide (ap ≠ some x))
    · obtain ⟨-, rfl⟩ := findCue_some hx
      refine .inr ⟨c, hx, ha, of_decide_eq_true hmay, ?_⟩
      rw [eq]
      simp only
      rw [map_ident_map _ fun d => ident_of_core (chained_core s _ d), lowered_filter]
    · rw [eq]
      exact .inl (lowered_ident x s.cues)

/-! ### The edit pool -/

/-- The cues' edits are those that the hold counts `hold` count; only WAITING cues have any, and the cue that is being applied, if any, is APPLYING (R42, R87). -/
structure HoldsExact (ap : Option Byte) (hold : BusId → Nat) (cues : List Cue) : Prop where
  distinct : (cues.map Cue.tag).Nodup
  applied : ∀ c ∈ cues, c.state = .applying → c.edits = []
  begun : ∀ c ∈ cues, ap = some c.tag → c.state = .applying
  counts : ∀ b, hold b = (cues.flatMap Cue.edits).countP fun e => decide (e.bus = b)

variable {hold : BusId → Nat} {cues ds : List Cue}

theorem HoldsExact.of_idents (h : HoldsExact ap hold cues) (same : ds.map Cue.ident = cues.map Cue.ident) : HoldsExact ap hold ds := by
  have tags : ds.map Cue.tag = cues.map Cue.tag := map_eq_of_idents same Cue.tag fun _ => rfl
  have edits : ds.map Cue.edits = cues.map Cue.edits := map_eq_of_idents same Cue.edits fun _ => rfl
  have find {d : Cue} (hd : d ∈ ds) : ∃ c ∈ cues, c.tag = d.tag ∧ c.state = d.state ∧ c.edits = d.edits := by
    have keys := map_eq_of_idents same (fun c => (c.tag, c.state, c.edits)) fun _ => rfl
    have hd := List.mem_map_of_mem (f := fun c : Cue => (c.tag, c.state, c.edits)) hd
    rw [keys] at hd
    obtain ⟨c, hc, eq⟩ := List.mem_map.mp hd
    simp only [Prod.mk.injEq] at eq
    exact ⟨c, hc, eq⟩
  refine ⟨tags ▸ h.distinct, fun d hd ha => ?_, fun d hd ht => ?_, fun b => ?_⟩
  · obtain ⟨c, hc, -, hst, he⟩ := find hd
    exact he ▸ h.applied c hc (hst.trans ha)
  · obtain ⟨c, hc, htag, hst, -⟩ := find hd
    exact hst ▸ h.begun c hc (htag ▸ ht)
  · rw [h.counts b, List.flatMap_def, List.flatMap_def, edits]

/-- An APPLYING cue that leaves takes nothing out of the pool. -/
theorem HoldsExact.remove (h : HoldsExact ap hold cues) {x : Byte} (gone : ∀ c ∈ cues, c.tag = x → c.state = .applying) :
    HoldsExact ap hold (cues.filter fun d => decide (d.tag ≠ x)) := by
  have same : (cues.filter fun d => decide (d.tag ≠ x)).flatMap Cue.edits = cues.flatMap Cue.edits := by
    have empty : ∀ c ∈ cues, c.tag = x → c.edits = [] := fun c hc ht => h.applied c hc (gone c hc ht)
    clear h gone
    induction cues with
    | nil => rfl
    | cons c rest ih =>
      have hrest := ih fun d hd => empty d (List.mem_cons_of_mem _ hd)
      by_cases ht : c.tag = x
      · rw [List.filter_cons_of_neg (by simpa using ht), hrest, List.flatMap_cons, empty c List.mem_cons_self ht, List.nil_append]
      · rw [List.filter_cons_of_pos (by simpa using ht), List.flatMap_cons, hrest, List.flatMap_cons]
  refine ⟨h.distinct.sublist (List.filter_sublist.map Cue.tag), fun c hc => h.applied c ((List.mem_filter.mp hc).1),
    fun c hc => h.begun c ((List.mem_filter.mp hc).1), fun b => ?_⟩
  rw [same]
  exact h.counts b

/-- A cue's edits leave the pool when it is taken (R87, R98). -/
theorem pool_applied (P : Edit → Bool) (distinct : (cues.map Cue.tag).Nodup) (hc : c ∈ cues) :
    ((cues.map fun d => if d.tag = c.tag then d.applied else d).flatMap Cue.edits).countP P + c.edits.countP P =
      (cues.flatMap Cue.edits).countP P := by
  induction cues with
  | nil => cases hc
  | cons d rest ih =>
    rw [List.map_cons, List.nodup_cons] at distinct
    obtain ⟨fresh, distinct⟩ := distinct
    rw [List.map_cons, List.flatMap_cons, List.flatMap_cons, List.countP_append, List.countP_append]
    rcases List.mem_cons.mp hc with rfl | hc
    · have others : rest.map (fun d => if d.tag = c.tag then d.applied else d) = rest := by
        refine (List.map_congr_left fun d hd => if_neg fun ht => fresh ?_).trans (List.map_id rest)
        rw [← ht]
        exact List.mem_map_of_mem hd
      rw [others, if_pos rfl]
      simp only [Cue.applied, List.countP_nil]
      omega
    · have other : d.tag ≠ c.tag := fun ht => fresh (by rw [ht]; exact List.mem_map_of_mem hc)
      rw [if_neg other]
      have := ih distinct hc
      omega

/-- The pool is that of the cues that stay and of those that leave. -/
theorem pool_filter (P : Edit → Bool) (sel : Cue → Bool) (cues : List Cue) :
    ((cues.filter fun c => !sel c).flatMap Cue.edits).countP P + ((cues.filter sel).flatMap Cue.edits).countP P =
      (cues.flatMap Cue.edits).countP P := by
  rw [Nat.add_comm, ← List.countP_append, ← List.flatMap_append]
  exact ((List.filter_append_perm sel cues).flatMap_right Cue.edits).countP_eq P

/-! ### The operations (O54) -/

/-- The hold counts of a state are those of its pool. -/
abbrev State.PoolExact (s : State) (ap : Option Byte) : Prop := HoldsExact ap (fun b => (s.bus b).holdCount) s.cues

theorem State.PoolExact.of_buses (h : s.PoolExact ap) (same : t.cues.map Cue.ident = s.cues.map Cue.ident)
    (count : ∀ b, (t.bus b).holdCount = (s.bus b).holdCount) : t.PoolExact ap := by
  rw [State.PoolExact, funext count]
  exact h.of_idents same

theorem State.PoolExact.loseRamp (h : s.PoolExact ap) (e : Entry) : (s.loseRamp e ap).PoolExact ap := by
  rw [State.PoolExact, funext fun b => congrArg BusRecord.holdCount (loseRamp_bus s e ap b)]
  obtain same | ⟨c, hc, ha, -, same⟩ := loseRamp_idents s e ap
  · exact h.of_idents same
  · refine (h.remove fun d hd ht => ?_).of_idents same
    rw [eq_of_tag_eq h.distinct hd (findCue_some hc).1 ht]
    exact ha

theorem State.PoolExact.removeEntry (h : s.PoolExact ap) (e : Entry) : (s.removeEntry e ap).PoolExact ap := by
  refine State.PoolExact.loseRamp (s := (s.setXp (xpRemove s.mix.xp e.channel e.bus)).lowerEntries e.bus) ?_ e
  refine h.of_buses (by simp) fun b => ?_
  rw [State.lowerEntries, modifyBus_bus, setXp_bus, setXp_bus]
  split
  case isTrue hb => rw [hb]
  case isFalse => rfl

theorem edit_poolExact {x : CueContext} (h : EditEffect s x t) (hs : s.PoolExact (some x.tag)) : t.PoolExact (some x.tag) := by
  cases h
  case same h => exact hs.of_buses (by rw [h.cues]) h.holdCount
  case grow f hn hroom ho =>
    refine hs.of_buses ((ownRamp_idents _ x).trans (by simp)) fun b => ?_
    rw [ownRamp_bus, State.raiseEntries, modifyBus_bus]
    split
    case isTrue hb => exact hb ▸ rfl
    case isFalse => rfl
  case replace e f he ho =>
    refine State.PoolExact.loseRamp (s := (s.putEntry f).ownRamp x) ?_ e
    exact hs.of_buses ((ownRamp_idents _ x).trans (by simp)) fun b => by rw [ownRamp_bus]; rfl
  case remove e he => exact hs.removeEntry e

theorem poolExact_rule : LedgerRule fun s => s.PoolExact none where
  view s t hs h := hs.of_buses (by
    rw [← map_ident_map t.cues (f := Cue.core) fun _ => rfl, h.cores]
    exact map_ident_map s.cues fun _ => rfl) h.holdCount
  empty s h := by
    rw [State.PoolExact, h.cues, funext h.holdCount]
    exact ⟨List.nodup_nil, by simp, by simp, fun b => rfl⟩
  retire s chosen hs := by
    rw [retireInputs_eq]
    refine foldl_preserves (P := fun v : State => v.PoolExact none) (fun v e hv => hv.removeEntry e) _ ?_
    obtain ⟨hmix, hcues, -⟩ := emptyInputs_frame s chosen
    exact hs.of_buses (by rw [hcues]) fun b => by rw [bus_congr hmix]
  enter s c hw ho hnew hroom hpool hs := by
    have fresh : c.tag ∉ s.cues.map Cue.tag := by
      intro hmem
      obtain ⟨d, hd, ht⟩ := List.mem_map.mp hmem
      exact findCue_none.mp hnew d hd ht
    refine ⟨?_, fun d hd ha => ?_, fun _ _ h => absurd h (by simp), fun b => ?_⟩
    · show ((s.cues ++ [c]).map Cue.tag).Nodup
      rw [List.map_append]
      refine List.nodup_append.mpr ⟨hs.distinct, nodup_singleton _, fun a ha b hb => ?_⟩
      rintro rfl
      exact fresh (List.mem_singleton.mp hb ▸ ha)
    · rcases List.mem_append.mp hd with hd | hd
      · exact hs.applied d hd ha
      · rw [List.mem_singleton.mp hd, hw] at ha
        cases ha
    · show ((s.takeHolds c.edits).bus b).holdCount = ((s.cues ++ [c]).flatMap Cue.edits).countP _
      rw [takeHolds_bus, List.flatMap_append, List.countP_append, ← hs.counts b, List.countP_eq_length_filter]
      simp
  withdraw s tags hs := by
    refine ⟨hs.distinct.sublist (List.filter_sublist.map Cue.tag), fun d hd => hs.applied d ((List.mem_filter.mp hd).1),
      fun _ _ h => absurd h (by simp), fun b => ?_⟩
    have split := pool_filter (fun e => decide (e.bus = b)) (fun c => decide (c.tag ∈ tags)) s.cues
    rw [← hs.counts b] at split
    show ((s.withdrawCues tags).bus b).holdCount = ((s.cues.filter fun c => decide (c.tag ∉ tags)).flatMap Cue.edits).countP _
    rw [withdrawCues_bus, ← List.countP_eq_length_filter]
    simp only [decide_not]
    exact (Nat.eq_sub_of_add_eq split).symm
  take g n s x hs := by
    refine takeCue_rule (P := fun u => u.PoolExact none) (Q := fun _ u => u.PoolExact (some x)) (fun c hc => ?_)
      (fun c v e _ hv => edit_poolExact (applyEdit_effect v _ e) hv) (fun c u _ hu _ => ?_) (fun c u d _ hu hd _ => ?_) hs
    · obtain ⟨hmem, rfl⟩ := findCue_some hc
      rw [State.PoolExact, beginApplying_cues]
      refine ⟨?_, fun d hd ha => ?_, fun d hd ht => ?_, fun b => ?_⟩
      · rw [List.map_map, show s.cues.map (Cue.tag ∘ fun d => if d.tag = c.tag then d.applied else d) = s.cues.map Cue.tag from
          List.map_congr_left fun d _ => applied_tag c.tag d]
        exact hs.distinct
      · obtain ⟨e, he, rfl⟩ := List.mem_map.mp hd
        split at ha
        case isTrue ht => rw [if_pos ht]; rfl
        case isFalse ht => rw [if_neg ht]; exact hs.applied e he ha
      · obtain ⟨e, he, rfl⟩ := List.mem_map.mp hd
        rw [applied_tag] at ht
        rw [if_pos (Option.some.inj ht).symm]
        rfl
      · have split := pool_applied (fun e => decide (e.bus = b)) hs.distinct hmem
        rw [← hs.counts b] at split
        rw [State.beginApplying, modifyCue_bus, releaseHolds_bus, ← List.countP_eq_length_filter]
        exact (Nat.eq_sub_of_add_eq split).symm
    · exact ⟨hu.distinct, hu.applied, fun _ _ h => absurd h (by simp), hu.counts⟩
    · obtain ⟨hmem, rfl⟩ := findCue_some hd
      have gone := hu.remove (x := d.tag) fun e he ht => hu.begun e he (congrArg some ht.symm)
      rw [State.PoolExact, completeCue_eq hd]
      refine HoldsExact.of_idents ?_ (map_ident_map _ fun e => ident_of_core (convert_core d.tag _ e))
      exact ⟨gone.distinct, gone.applied, fun _ _ h => absurd h (by simp), gone.counts⟩
  gain g p s hs := by
    refine foldl_preserves (P := fun v : State => v.PoolExact none) (fun v e hv => ?_) _ hs
    unfold State.endRamp
    refine State.PoolExact.loseRamp ?_ e
    split
    · refine hv.of_buses (by simp) fun b => ?_
      rw [State.lowerEntries, modifyBus_bus]
      split
      case isTrue hb => rw [hb]
      case isFalse => rfl
    · exact hv

/-- Settles O54: a cue's edits enter the pool with it and leave it when it is taken or withdrawn, and a cue that completes has none. -/
theorem stepKeepsHoldCounts : Obligations.StepKeepsHoldCounts := by
  rintro s t ⟨distinct, applied, counts⟩ h
  have naming (u : State) (b : BusId) : u.editsNaming b = (u.cues.flatMap Cue.edits).countP fun e => decide (e.bus = b) :=
    List.countP_eq_length_filter.symm
  have kept := poolExact_rule.step h
    ⟨distinct, applied, fun _ _ h => absurd h (by simp), fun b => (counts b).trans (naming s b)⟩
  exact ⟨kept.distinct, kept.applied, fun b => (kept.counts b).trans (naming t b).symm⟩

end Sys2Proof.Machine
end

section
/-! PROOFS. Every collection stays within its capacity (R47, R83, R87, R135, R149, R150, R163). -/

namespace Sys2Proof.Machine

variable {s t : State}

/-! ### The table, the cue list and the pool -/

/-- The cue list has lost some records at most, but for counts, triggers and flags. -/
abbrev State.Shrinks (t s : State) : Prop := (t.cues.map Cue.ident).Sublist (s.cues.map Cue.ident)

theorem State.Shrinks.length (h : t.Shrinks s) : t.cues.length ≤ s.cues.length := by simpa using h.length_le

theorem poolUsed_idents (s : State) : s.poolUsed = ((s.cues.map Cue.ident).map fun c => c.edits.length).sum := by
  rw [List.map_map]
  rfl

theorem State.Shrinks.poolUsed (h : t.Shrinks s) : t.poolUsed ≤ s.poolUsed := by
  rw [poolUsed_idents, poolUsed_idents]
  exact sum_le_of_sublist (h.map _)

theorem shrinks_of_idents (h : t.cues.map Cue.ident = s.cues.map Cue.ident) : t.Shrinks s := by
  unfold State.Shrinks
  exact h ▸ List.Sublist.refl _

theorem loseRamp_shrinks (s : State) (e : Entry) (ap : Option Byte) : (s.loseRamp e ap).Shrinks s := by
  obtain same | ⟨c, -, -, -, same⟩ := loseRamp_idents s e ap
  · exact shrinks_of_idents same
  · rw [State.Shrinks, same]
    exact List.filter_sublist.map Cue.ident

theorem completeCue_shrinks (s : State) (x : Byte) : (s.completeCue x).Shrinks s := by
  cases h : s.findCue x with
  | none => exact shrinks_of_idents (by rw [completeCue_none h])
  | some c =>
    rw [State.Shrinks, completeCue_eq h, map_ident_map _ fun d => ident_of_core (convert_core x _ d)]
    exact List.filter_sublist.map Cue.ident

/-- The mix engine's table is in order, and it, the cue list and the edit pool are within their capacities (R47, R83, R87). -/
structure State.LedgerFits (s : State) : Prop where
  order : InOrder s.mix.xp
  table : s.TableFits
  cues : s.CueListFits

theorem State.LedgerFits.shrink (h : s.LedgerFits) (hxp : t.mix.xp.Sublist s.mix.xp) (hc : t.Shrinks s) : t.LedgerFits :=
  ⟨h.order.sublist hxp, Nat.le_trans hxp.length_le h.table, Nat.le_trans hc.length h.cues.1, Nat.le_trans hc.poolUsed h.cues.2⟩

theorem State.LedgerFits.loseRamp (h : s.LedgerFits) (e : Entry) (ap : Option Byte) : (s.loseRamp e ap).LedgerFits :=
  h.shrink (by simp) (loseRamp_shrinks s e ap)

theorem State.LedgerFits.removeEntry (h : s.LedgerFits) (e : Entry) (ap : Option Byte) : (s.removeEntry e ap).LedgerFits :=
  State.LedgerFits.loseRamp (h.shrink (by simp [xpRemove]) (by simp [State.Shrinks])) e ap

theorem edit_ledgerFits {x : CueContext} (h : EditEffect s x t) (hs : s.LedgerFits) : t.LedgerFits := by
  have own {u : State} (hu : u.LedgerFits) : (u.ownRamp x).LedgerFits :=
    hu.shrink (by simp) (shrinks_of_idents (ownRamp_idents u x))
  cases h
  case same h => exact hs.shrink (h.xp ▸ List.Sublist.refl _) (shrinks_of_idents (by rw [h.cues]))
  case grow f hn hroom ho =>
    refine own ⟨by simpa [State.putEntry] using inOrder_put hs.order f, ?_, by simpa [State.CueListFits, State.poolUsed] using hs.cues⟩
    have length := length_put hs.order f
    rw [hn, if_neg (by simp)] at length
    show ((s.putEntry f).raiseEntries f.bus).mix.xp.length ≤ 96
    simp only [raiseEntries_frame, State.putEntry, setXp_xp, length]
    exact hroom
  case replace e f he ho =>
    refine State.LedgerFits.loseRamp (own ?_) e (some x.tag)
    refine ⟨inOrder_put hs.order f, ?_, hs.cues⟩
    show (xpPut f s.mix.xp).length ≤ 96
    rw [length_put hs.order f, he]
    exact hs.table
  case remove e he => exact hs.removeEntry e (some x.tag)

theorem ledgerFits_rule : LedgerRule State.LedgerFits where
  view s t hs h := by
    refine hs.shrink (h.xp ▸ List.Sublist.refl _) ?_
    refine shrinks_of_idents ?_
    rw [← map_ident_map t.cues (f := Cue.core) fun _ => rfl, h.cores]
    exact map_ident_map s.cues fun _ => rfl
  empty s h := by
    refine ⟨by rw [h.xp]; exact List.Pairwise.nil, ?_, ?_⟩
    · rw [State.TableFits, h.xp]
      exact Nat.zero_le _
    · rw [State.CueListFits, State.poolUsed, h.cues]
      exact ⟨Nat.zero_le _, Nat.zero_le _⟩
  retire s chosen hs := by
    rw [retireInputs_eq]
    obtain ⟨hmix, hcues, -⟩ := emptyInputs_frame s chosen
    exact foldl_preserves (P := State.LedgerFits) (fun v e hv => hv.removeEntry e none) _
      (hs.shrink (hmix ▸ List.Sublist.refl _) (shrinks_of_idents (by rw [hcues])))
  enter s c hw ho hnew hroom hpool hs := by
    have hxp : (s.enterCue c).mix.xp = s.mix.xp := by simp [State.enterCue]
    refine ⟨hxp ▸ hs.order, by rw [State.TableFits, hxp]; exact hs.table, ?_, ?_⟩
    · show (s.cues ++ [c]).length ≤ 24
      rw [List.length_append]
      exact hroom
    · show ((s.cues ++ [c]).map fun d => d.edits.length).sum ≤ 128
      simpa [State.poolUsed] using hpool
  withdraw s tags hs := by
    have hxp := withdrawCues_xp s tags
    refine ⟨?_, ?_, ?_⟩
    · rw [hxp]
      exact inOrder_map hs.order fun e => by split <;> exact ⟨rfl, rfl⟩
    · rw [State.TableFits, hxp, List.length_map]
      exact hs.table
    · have shrinks : (s.withdrawCues tags).Shrinks s := List.filter_sublist.map Cue.ident
      exact ⟨Nat.le_trans shrinks.length hs.cues.1, Nat.le_trans shrinks.poolUsed hs.cues.2⟩
  take g n s x hs := by
    refine takeCue_rule (P := State.LedgerFits) (Q := fun _ => State.LedgerFits) (fun c _ => ?_)
      (fun c v e _ hv => edit_ledgerFits (applyEdit_effect v _ e) hv) (fun c u _ hu _ => hu)
      (fun c u d _ hu _ _ => hu.shrink (by simp) (completeCue_shrinks u x)) hs
    have hxp : (s.beginApplying c).mix.xp = s.mix.xp := by simp [State.beginApplying]
    refine ⟨hxp ▸ hs.order, by rw [State.TableFits, hxp]; exact hs.table, ?_⟩
    rw [State.CueListFits, State.poolUsed, beginApplying_cues, List.length_map, List.map_map]
    refine ⟨hs.cues.1, Nat.le_trans (sum_map_le fun d _ => ?_) hs.cues.2⟩
    rw [Function.comp_apply]
    split
    · exact Nat.zero_le _
    · exact Nat.le_refl _
  gain g p s hs := by
    refine foldl_preserves (P := State.LedgerFits) (fun v e hv => ?_) _ ?_
    · unfold State.endRamp
      refine State.LedgerFits.loseRamp (hv.shrink ?_ ?_) e none
      · split <;> simp
      · rw [State.Shrinks]
        split <;> simp
    · exact ⟨inOrder_stepTable hs.order _, Nat.le_trans (List.length_filterMap_le _ _) hs.table, hs.cues⟩

/-! ### The fault stack (R163) -/

theorem State.FaultStackFits.push (h : s.FaultStackFits) (f : FaultRecord) : (s.pushFault f).FaultStackFits :=
  length_pushRecord_le f h

theorem State.FaultStackFits.of_eq (h : s.FaultStackFits) (same : t.faults = s.faults) : t.FaultStackFits := by
  rw [State.FaultStackFits, same]
  exact h

theorem State.FaultStackFits.slip (h : s.FaultStackFits) (g : GroupId) : (s.slip g).FaultStackFits :=
  (h.push (FaultRecord.of .slip g (s.group g).counter)).of_eq (by simp [State.slip])

theorem State.FaultStackFits.frameStartLocked (h : s.FaultStackFits) (g : GroupId) (n : FrameNo) :
    (s.frameStartLocked g n).FaultStackFits := by
  unfold State.frameStartLocked
  split
  case isTrue => exact h.of_eq (by simp)
  case isFalse =>
    dsimp only
    split
    · refine State.FaultStackFits.push (h.of_eq ?_) _
      simp
    · exact h.of_eq (by simp)

theorem State.FaultStackFits.passArrival (h : s.FaultStackFits) (g : GroupId) (n : FrameNo) : (s.passArrival g n).FaultStackFits := by
  unfold State.passArrival
  split
  · exact h
  · exact h.push _

theorem State.FaultStackFits.frameArrival (h : s.FaultStackFits) (g : GroupId) (d : Bool) : (s.frameArrival g d).FaultStackFits := by
  refine State.FaultStackFits.passArrival ?_ g _
  refine State.FaultStackFits.of_eq (s := s.startAtEdge g d) ?_ (by simp)
  unfold State.startAtEdge
  split
  · exact h.frameStartLocked g _
  · exact h

theorem State.FaultStackFits.applyEdit (h : s.FaultStackFits) (x : CueContext) (e : Edit) : (s.applyEdit x e).FaultStackFits := by
  unfold State.applyEdit
  split
  case isTrue => exact h.push _
  case isFalse =>
    cases e with
    | gain c b target =>
      show (s.applyGain x c b target).FaultStackFits
      unfold State.applyGain
      split
      · split
        · exact h.of_eq (by simp)
        · exact h.push _
      · exact h.of_eq (by simp)
    | drop c b => exact h.of_eq (by simp)
    | route c b =>
      show (s.applyRoute x c b).FaultStackFits
      unfold State.applyRoute
      split
      · exact h
      · exact h.of_eq (by simp)
      · split
        · exact h
        · exact State.FaultStackFits.push (h.of_eq (by simp)) _
      · exact State.FaultStackFits.push (h.of_eq (by simp)) _
    | unroute c b => exact h.of_eq (by simp)
    | delay b d => exact h.of_eq (by simp)

theorem State.FaultStackFits.takeCue (h : s.FaultStackFits) (g : GroupId) (n : FrameNo) (x : Byte) :
    (State.takeCue g n s x).FaultStackFits :=
  takeCue_rule (P := State.FaultStackFits) (Q := fun _ => State.FaultStackFits) (fun c _ => h.of_eq (by simp [State.beginApplying]))
    (fun c v e _ hv => hv.applyEdit _ e) (fun c u _ hu _ => hu) (fun c u d _ hu _ _ => hu.of_eq (by simp)) h

theorem wordSelectEdge_faultStackFits {g : GroupId} {high : Bool} {n : Nat} (h : exec (.wordSelectEdge g high n) s = .next t)
    (hs : s.FaultStackFits) : t.FaultStackFits := by
  simp only [exec, execWordSelectEdge, Host.Outcome.next.injEq] at h
  split at h
  case h_1 => exact h ▸ hs
  case h_2 plan _ =>
    split at h
    case h_1 => exact h ▸ hs
    case h_2 => exact h ▸ hs
    case h_3 => exact h ▸ hs.of_eq (by simp)
    case h_4 =>
      split at h
      case h_1 => exact h ▸ hs.of_eq (by simp)
      case h_2 =>
        split at h
        · exact h ▸ hs.of_eq (by simp)
        · exact h ▸ hs
    case h_5 =>
      split at h
      case h_1 => exact h ▸ hs.of_eq (by simp)
      case h_2 half _ =>
        split at h
        case isFalse => exact h ▸ hs
        case isTrue =>
          split at h
          case isFalse => exact h ▸ hs.slip g
          case isTrue =>
            subst h
            refine State.FaultStackFits.of_eq (s := s.judgeLocked g half.side plan.firstBitDelay) ?_ (by simp)
            unfold State.judgeLocked
            split
            · exact hs.of_eq (by simp)
            · split
              · exact hs.frameArrival g _
              · exact hs

theorem lossTimerExpiry_faultStackFits {g : GroupId} (h : exec (.lossTimerExpiry g) s = .next t) (hs : s.FaultStackFits) :
    t.FaultStackFits := by
  simp only [exec, execLossTimerExpiry, Host.Outcome.next.injEq] at h
  split at h
  case isTrue =>
    split at h
    · exact h ▸ (hs.push (FaultRecord.of .clockLoss g (s.group g).counter)).of_eq (by simp)
    · exact h ▸ hs.of_eq (by simp)
    · exact h ▸ hs
  case isFalse => exact h ▸ hs

theorem frameStart_faultStackFits {g : GroupId} (h : exec (.frameStart g) s = .next t) (hs : s.FaultStackFits) :
    t.FaultStackFits := by
  have start (G : ClockGroup) (n : FrameNo) : ((s.setGroup g G).frameStartLocked g n).FaultStackFits :=
    State.FaultStackFits.frameStartLocked (s := s.setGroup g G) hs g n
  simp only [exec, execFrameStart, Host.Outcome.next.injEq] at h
  split at h
  case h_1 =>
    split at h
    case isTrue => exact h ▸ start _ _
    case isFalse =>
      split at h
      case h_1 =>
        split at h
        case isTrue =>
          split at h
          · exact h ▸ hs
          · exact h ▸ start _ _
        case isFalse => exact h ▸ hs
      case h_2 => exact h ▸ hs
  case h_2 => exact h ▸ hs

theorem cueStart_faultStackFits {g : GroupId} (h : exec (.cueStart g) s = .next t) (hs : s.FaultStackFits) : t.FaultStackFits := by
  simp only [exec, execCueStart, Host.Outcome.next.injEq] at h
  split at h
  case h_1 => exact h ▸ hs
  case h_2 p _ =>
    have taken : ((s.dueTags g p.frame).foldl (State.takeCue g p.frame) s).FaultStackFits :=
      foldl_preserves (P := State.FaultStackFits) (fun v x hv => hv.takeCue g p.frame x) _ hs
    split at h
    · exact h ▸ taken.of_eq (by simp)
    · exact h ▸ taken.of_eq (by simp)

/-! ### The memory port's queues (R135) -/

/-- The read queue and the write queue are within their capacities. -/
abbrev MemoryPort.Fits (m : MemoryPort) : Prop := m.readQ.length ≤ 16 ∧ m.writeQ.length ≤ 8

theorem MemoryPort.Fits.arbitrate {m : MemoryPort} (h : m.Fits) : m.arbitrate.Fits := by
  obtain e | ⟨-, e⟩ | ⟨-, r, hr, e⟩ | ⟨-, w, ws, hw, e⟩ := arbitrate_cases m
  · exact e.symm ▸ h
  · exact e ▸ h
  · exact e ▸ ⟨Nat.le_trans List.erase_sublist.length_le h.1, h.2⟩
  · exact e ▸ ⟨h.1, Nat.le_trans (List.tail_sublist _).length_le h.2⟩

theorem State.MemoryQueuesFit.of_eq (h : s.MemoryQueuesFit) (hr : t.mem.readQ = s.mem.readQ) (hw : t.mem.writeQ = s.mem.writeQ) :
    t.MemoryQueuesFit := by
  rw [State.MemoryQueuesFit, hr, hw]
  exact h

theorem State.MemoryQueuesFit.admitWrite (h : s.MemoryQueuesFit) (room : s.mem.writeQ.length < 8) (w : WriteRequest) :
    (s.admitWrite w).MemoryQueuesFit :=
  MemoryPort.Fits.arbitrate (m := { s.mem with writeQ := s.mem.writeQ ++ [w] }) ⟨h.1, by
    rw [List.length_append]
    exact room⟩

theorem State.MemoryQueuesFit.admitRead (h : s.MemoryQueuesFit) (room : s.mem.readQ.length < 16) (r : ReadRequest) :
    (s.admitRead r).MemoryQueuesFit :=
  MemoryPort.Fits.arbitrate (m := { s.mem with readQ := s.mem.readQ ++ [r] }) ⟨by
    rw [List.length_append]
    exact room, h.2⟩

theorem State.MemoryQueuesFit.freeDram (h : s.MemoryQueuesFit) : s.freeDram.MemoryQueuesFit :=
  MemoryPort.Fits.arbitrate (m := { s.mem with access := none }) h

theorem State.MemoryQueuesFit.offerWrite (h : s.MemoryQueuesFit) (g : GroupId) : (s.offerWrite g).MemoryQueuesFit := by
  unfold State.offerWrite
  split
  case h_1 => exact h
  case h_2 =>
    split
    case h_1 => exact h
    case h_2 =>
      split
      case isTrue room =>
        refine State.MemoryQueuesFit.admitWrite (h.of_eq ?_ ?_) ?_ _
        · simp
        · simp
        · simpa using room.1
      case isFalse => exact h

theorem State.MemoryQueuesFit.offerRead (h : s.MemoryQueuesFit) (g : GroupId) : (s.offerRead g).MemoryQueuesFit := by
  unfold State.offerRead
  split
  case h_1 => exact h
  case h_2 =>
    split
    case h_1 => exact h
    case h_2 =>
      split
      case h_1 => exact h
      case h_2 =>
        split
        case h_1 => exact State.MemoryQueuesFit.offerWrite (h.of_eq (by simp) (by simp)) g
        case h_2 =>
          split
          case isTrue room =>
            refine State.MemoryQueuesFit.offerWrite (State.MemoryQueuesFit.admitRead (h.of_eq ?_ ?_) ?_ _) g
            · simp
            · simp
            · simpa using room.1
          case isFalse => exact h

theorem State.MemoryQueuesFit.visit (h : s.MemoryQueuesFit) (g : GroupId) (i : PassBus) : (s.visit g i).MemoryQueuesFit := by
  unfold State.visit
  split
  case h_1 => exact h.of_eq (by simp) (by simp)
  case h_2 =>
    split
    case h_1 => exact h.of_eq (by simp) (by simp)
    case h_2 =>
      split
      · exact h.of_eq (by simp) (by simp)
      · exact State.MemoryQueuesFit.offerRead (h.of_eq (by simp) (by simp)) g

theorem State.MemoryQueuesFit.finishPass (h : s.MemoryQueuesFit) (g : GroupId) : (s.finishPass g).MemoryQueuesFit :=
  h.of_eq (by simp) (by simp)

theorem exchangeVisit_memoryQueuesFit {g : GroupId} (h : exec (.exchangeVisit g) s = .next t) (hs : s.MemoryQueuesFit) :
    t.MemoryQueuesFit := by
  simp only [exec, execExchangeVisit, Host.Outcome.next.injEq] at h
  split at h
  case h_1 => exact h ▸ hs
  case h_2 =>
    split at h
    case h_1 => exact h ▸ hs
    case h_2 i _ => exact h ▸ (hs.visit g i).finishPass g

theorem passReadOffer_memoryQueuesFit {g : GroupId} (h : exec (.passReadOffer g) s = .next t) (hs : s.MemoryQueuesFit) :
    t.MemoryQueuesFit := by
  simp only [exec, execPassReadOffer, Host.Outcome.next.injEq] at h
  split at h
  · exact h ▸ (hs.offerRead g).finishPass g
  · exact h ▸ hs

theorem passWriteOffer_memoryQueuesFit {g : GroupId} (h : exec (.passWriteOffer g) s = .next t) (hs : s.MemoryQueuesFit) :
    t.MemoryQueuesFit := by
  simp only [exec, execPassWriteOffer, Host.Outcome.next.injEq] at h
  split at h
  · exact h ▸ (hs.offerWrite g).finishPass g
  · exact h ▸ hs

theorem dramReadComplete_memoryQueuesFit (h : exec .dramReadComplete s = .next t) (hs : s.MemoryQueuesFit) : t.MemoryQueuesFit := by
  simp only [exec, execDramReadComplete] at h
  split at h
  case h_1 a destination _ _ =>
    split at h
    case isTrue => cases h
    case isFalse =>
      cases destination with
      | none =>
        cases h
        exact hs.freeDram
      | some d =>
        cases h
        refine State.MemoryQueuesFit.freeDram (State.MemoryQueuesFit.finishPass (hs.of_eq ?_ ?_) _)
        · simp
        · simp
  case h_2 =>
    cases h
    exact hs

theorem dramWriteComplete_memoryQueuesFit (h : exec .dramWriteComplete s = .next t) (hs : s.MemoryQueuesFit) :
    t.MemoryQueuesFit := by
  simp only [exec, execDramWriteComplete] at h
  split at h
  case h_1 a v _ _ =>
    split at h
    · cases h
    · cases h
      exact State.MemoryQueuesFit.freeDram (s := { s with mem := { s.mem with dram := s.mem.dram.write a v } }) hs
  case h_2 =>
    cases h
    exact hs

theorem refreshDue_memoryQueuesFit (h : exec .refreshDue s = .next t) (hs : s.MemoryQueuesFit) : t.MemoryQueuesFit := by
  simp only [exec, execRefreshDue, Host.Outcome.next.injEq] at h
  split at h
  · exact h ▸ hs
  · exact h ▸ MemoryPort.Fits.arbitrate (m := { s.mem with refreshDue := true }) hs

theorem refreshComplete_memoryQueuesFit (h : exec .refreshComplete s = .next t) (hs : s.MemoryQueuesFit) : t.MemoryQueuesFit := by
  simp only [exec, execRefreshComplete, Host.Outcome.next.injEq] at h
  split at h
  · exact h ▸ State.MemoryQueuesFit.freeDram (s := { s with mem := { s.mem with openRow := none } }) hs
  · exact h ▸ hs

/-- The clear engine leaves a place in the write queue for a pass (R134). -/
theorem clearWrite_memoryQueuesFit (h : exec .clearWrite s = .next t) (hs : s.MemoryQueuesFit) : t.MemoryQueuesFit := by
  simp only [exec, execClearWrite, Host.Outcome.next.injEq] at h
  split at h
  case h_1 => exact h ▸ hs
  case h_2 b _ _ =>
    split at h
    case h_1 => exact h ▸ hs
    case h_2 l _ =>
      split at h
      case h_1 => exact h ▸ hs
      case h_2 k _ =>
        split at h
        case isFalse => exact h ▸ hs
        case isTrue room =>
          subst h
          have admitted := State.MemoryQueuesFit.admitWrite (s := s.setLine b (some (l.cleared k))) hs
            (Nat.lt_of_succ_le (Nat.le_of_succ_le room)) { address := l.base + k, value := 0, source := .clearEngine }
          unfold State.clearStep
          dsimp only
          split
          · exact admitted
          · exact admitted

/-! ### The link's queues (R149, R150) -/

/-- A command of the executor takes a frame only with room for its reply. -/
theorem request_linkQueuesFit {c : Instr} {r : Request} (hr : requestOf c = some r) (h : exec c s = .next t)
    (hs : s.LinkQueuesFit) : t.LinkQueuesFit := by
  have mem : c ∈ executorCommands := by cases c <;> cases hr <;> decide
  obtain ⟨takes, leaves⟩ := eachTakenFrameGetsOneReply c mem s
  by_cases hf : ∃ f, s.Takes f ∧ f.BelongsTo c
  · obtain ⟨f, hf, hb⟩ := hf
    obtain ⟨u, reply, hu, replies, -, -, -, -, requests, -⟩ := takes f hf hb
    obtain rfl : u = t := Host.Outcome.next.inj (hu.symm.trans h)
    rw [State.LinkQueuesFit, replies, requests, List.length_append]
    refine ⟨?_, hf.1⟩
    split
    · exact Nat.zero_le _
    · exact Nat.le_trans (List.tail_sublist _).length_le hs.1
  · have same := leaves fun f hf' hb => hf ⟨f, hf', hb⟩
    obtain rfl : s = t := Host.Outcome.next.inj (same.symm.trans h)
    exact hs

/-! ### All of them (O53) -/

/-- The link's queues, the memory port's queues and the fault stack are within their capacities. -/
structure State.QueuesFit (s : State) : Prop where
  link : s.LinkQueuesFit
  memory : s.MemoryQueuesFit
  faults : s.FaultStackFits

theorem effect_memoryQueuesFit {u : State} (h : RequestEffect s u) (hs : s.MemoryQueuesFit) : u.MemoryQueuesFit := by
  cases h
  case clips => exact hs
  case restart b l hl =>
    unfold State.restartLine
    cases l.state <;> exact hs.of_eq (by simp) (by simp)
  all_goals exact hs.of_eq (by simp [State.addLine, State.dropLine, State.enterCue]) (by simp [State.addLine, State.dropLine, State.enterCue])

theorem effect_faultStackFits {u : State} (h : RequestEffect s u) (hs : s.FaultStackFits) : u.FaultStackFits := by
  cases h
  case faults top rest l hf =>
    rw [State.FaultStackFits, hf] at hs
    exact Nat.le_of_succ_le hs
  case clips => exact hs
  case restart b l hl =>
    unfold State.restartLine
    cases l.state <;> exact hs.of_eq (by simp)
  all_goals exact hs.of_eq (by simp [State.addLine, State.dropLine, State.enterCue])

theorem exec_queuesFit {c : Instr} (h : exec c s = .next t) (hs : s.QueuesFit) : t.QueuesFit := by
  by_cases hr : ∃ r, requestOf c = some r
  case pos =>
    obtain ⟨r, hr⟩ := hr
    exact ⟨request_linkQueuesFit hr h hs.link,
      request_preserves (P := State.MemoryQueuesFit) (fun _ _ h => h) (fun _ _ => effect_memoryQueuesFit)
        (fun _ _ => ⟨Nat.zero_le _, Nat.zero_le _⟩) hr h hs.memory,
      request_preserves (P := State.FaultStackFits) (fun _ _ h => h) (fun _ _ => effect_faultStackFits) (fun _ h => h) hr h hs.faults⟩
  case neg =>
    have link (hq : t.link.requests = s.link.requests) (hp : t.link.replies = s.link.replies) : t.LinkQueuesFit := by
      rw [State.LinkQueuesFit, hq, hp]
      exact hs.link
    have lanes (k : t.KeepsBeyondLanes s) (hf : t.FaultStackFits) : t.QueuesFit :=
      ⟨link k.requests k.replies, hs.memory.of_eq (by rw [k.mem]) (by rw [k.mem]), hf⟩
    have memory (k : t.KeepsBeyondMemory s) (hm : t.MemoryQueuesFit) : t.QueuesFit :=
      ⟨link k.requests k.replies, hm, hs.faults.of_eq k.faults⟩
    have mix (k : t.KeepsBeyondMix s) (hf : t.FaultStackFits) : t.QueuesFit :=
      ⟨link k.requests k.replies, hs.memory.of_eq k.readQ k.writeQ, hf⟩
    cases c
    case transferBegin => obtain ⟨l, rfl, hq, hp⟩ := transferBegin_link h; exact ⟨link hq hp, hs.memory, hs.faults⟩
    case twoWireWriteAddress => obtain ⟨l, rfl, hq, hp⟩ := twoWireWriteAddress_link h; exact ⟨link hq hp, hs.memory, hs.faults⟩
    case transferEnd =>
      obtain ⟨l, rfl, hp, hq | ⟨room, f, hq⟩⟩ := transferEnd_link h
      · exact ⟨link hq hp, hs.memory, hs.faults⟩
      · refine ⟨⟨?_, ?_⟩, hs.memory, hs.faults⟩
        · show l.requests.length ≤ 4
          rw [hq, List.length_append]
          exact room
        · show l.replies.length ≤ 4
          exact hp ▸ hs.link.2
    case outgoingFrameComplete =>
      obtain ⟨l, rfl, hq, hp | hp⟩ := outgoingFrameComplete_link h
      · exact ⟨link hq hp, hs.memory, hs.faults⟩
      · refine ⟨⟨?_, ?_⟩, hs.memory, hs.faults⟩
        · show l.requests.length ≤ 4
          exact hq ▸ hs.link.1
        · show l.replies.length ≤ 4
          exact hp ▸ Nat.le_trans (List.tail_sublist _).length_le hs.link.2
    case hardwareReset =>
      cases h
      exact ⟨⟨Nat.zero_le _, Nat.zero_le _⟩, ⟨Nat.zero_le _, Nat.zero_le _⟩, Nat.zero_le _⟩
    case resetRelease =>
      obtain rfl | ⟨-, rfl⟩ := resetRelease_cases h
      · exact hs
      · exact ⟨hs.link, hs.memory, hs.faults⟩
    case wordSelectEdge => exact lanes (wordSelectEdge_keeps h) (wordSelectEdge_faultStackFits h hs.faults)
    case lossTimerExpiry => exact lanes (lossTimerExpiry_keeps h) (lossTimerExpiry_faultStackFits h hs.faults)
    case frameStart => exact lanes (frameStart_keeps h) (frameStart_faultStackFits h hs.faults)
    case wordComplete =>
      refine lanes (wordComplete_keeps h) (hs.faults.of_eq ?_)
      simp only [exec, execWordComplete, Host.Outcome.next.injEq] at h
      subst h
      split
      · split <;> rfl
      · rfl
    case exchangeVisit => exact memory (exchangeVisit_keeps h).1 (exchangeVisit_memoryQueuesFit h hs.memory)
    case passReadOffer => exact memory (passReadOffer_keeps h).1 (passReadOffer_memoryQueuesFit h hs.memory)
    case passWriteOffer => exact memory (passWriteOffer_keeps h).1 (passWriteOffer_memoryQueuesFit h hs.memory)
    case dramReadComplete => exact memory (dramReadComplete_keeps h).1 (dramReadComplete_memoryQueuesFit h hs.memory)
    case dramWriteComplete => exact memory (dramWriteComplete_keeps h).1 (dramWriteComplete_memoryQueuesFit h hs.memory)
    case refreshDue => exact memory (refreshDue_keeps h).1 (refreshDue_memoryQueuesFit h hs.memory)
    case refreshComplete => exact memory (refreshComplete_keeps h).1 (refreshComplete_memoryQueuesFit h hs.memory)
    case clearWrite => exact memory (clearWrite_keeps h).1 (clearWrite_memoryQueuesFit h hs.memory)
    case pinEdge =>
      obtain ⟨-, -, -, -, -, -, -, hmem, hq, hp, hf, -⟩ := pinEdge_keeps h
      exact ⟨link hq hp, hs.memory.of_eq (by rw [hmem]) (by rw [hmem]), hs.faults.of_eq hf⟩
    case cueStart => exact mix (cueStart_keeps h) (cueStart_faultStackFits h hs.faults)
    case gainStep g =>
      refine mix (gainStep_keeps h) (hs.faults.of_eq ?_)
      simp only [exec, execGainStep, Host.Outcome.next.injEq] at h
      split at h
      · rw [h]
      · subst h
        simp [endRamps_frame]
    case accumulate =>
      obtain ⟨k, -, -, -, -, hf⟩ := accumulate_keeps h
      exact mix k (hs.faults.of_eq hf)
    all_goals exact absurd ⟨_, rfl⟩ hr

/-- Settles O53: an entry, a cue, a frame, a reply, an access and a fault each enter only where there is room. -/
theorem stepKeepsCapacities : Obligations.StepKeepsCapacities := by
  rintro s t ⟨order, table, cues, link, memory, faults⟩ h
  have ledger := ledgerFits_rule.step h ⟨order, table, cues⟩
  have queues : t.QueuesFit := step_preserves (P := State.QueuesFit) (fun _ _ h => ⟨h.link, h.memory, h.faults⟩)
    (fun _ _ _ => exec_queuesFit) h ⟨link, memory, faults⟩
  exact ⟨ledger.order, ledger.table, ledger.cues, queues.link, queues.memory, queues.faults⟩

end Sys2Proof.Machine
end

section
/-! PROOFS. What a quad plan's payload gives, and which lane carries a channel (R2, R3, R6). -/

namespace Sys2Proof.Machine

/-! ### The payload of QUAD PLAN (R6, R176) -/

/-- The lane of a position: none where the presence bit is clear, and otherwise that of its lane byte with the width granted to it. -/
theorem planLane_eq (payload : List Byte) (i : LanePos) : planLane payload i =
    if (byteAt payload 1).getLsbD i.val then (laneOf (byteAt payload (4 + i.val))).map fun l =>
      some { l with granted := grantedWidth (fun j => (byteAt payload 1).getLsbD j.val) i l.requested }
    else some none := by
  unfold planLane
  dsimp only
  split
  case isTrue => cases laneOf (byteAt payload (4 + i.val)) <;> rfl
  case isFalse => rfl

/-- What a well formed payload says of the plan (R6, R7, R176). -/
theorem planOf_some {p : List Byte} {q : QuadId} {plan : Plan} (h : planOf p = some (q, plan)) :
    p.length = 8 ∧ (byteAt p 1).extractLsb' 5 3 = 0 ∧ (byteAt p 3).extractLsb' 2 6 = 0 ∧ (byteAt p 2).toNat ∈ halfLengths ∧
    letterOf (byteAt p 0) = some q ∧ (∀ i : LanePos, planLane p i = some plan.lanes[i]) ∧ ¬(q = .A ∧ plan.joined = true) ∧
    plan.halfLength = (byteAt p 2).toNat ∧ plan.firstBitDelay = (byteAt p 3).getLsbD 0 ∧
    plan.polarity = (if (byteAt p 3).getLsbD 1 then .leftLow else .leftHigh) ∧ plan.joined = (byteAt p 1).getLsbD 4 := by
  unfold planOf at h
  split at h
  case isFalse => cases h
  case isTrue shape =>
    obtain ⟨hlen, hmask, hformat, hhalf⟩ := shape
    split at h
    case h_2 => cases h
    case h_1 q' l0 l1 l2 l3 hq h0 h1 h2 h3 =>
      dsimp only at h
      split at h
      case isTrue => cases h
      case isFalse joined =>
        cases h
        refine ⟨hlen, hmask, hformat, hhalf, hq, fun i => ?_, joined, rfl, rfl, rfl, rfl⟩
        match i with
        | 0 => exact h0
        | 1 => exact h1
        | 2 => exact h2
        | 3 => exact h3

/-- A position that carries a lane has its presence bit set. -/
theorem present_of_planLane {payload : List Byte} {i : LanePos} {l : LanePlan} (h : planLane payload i = some (some l)) :
    (byteAt payload 1).getLsbD i.val = true := by
  rw [planLane_eq] at h
  split at h
  case isTrue present => exact present
  case isFalse => cases h

/-- The width granted to a lane is at most that its position allows (R2). -/
theorem granted_le {payload : List Byte} {i : LanePos} {l : LanePlan} (h : planLane payload i = some (some l)) :
    l.granted ≤ allowedWidth (fun j => (byteAt payload 1).getLsbD j.val) i := by
  have present := present_of_planLane h
  rw [planLane_eq, if_pos present] at h
  obtain ⟨m, -, hm⟩ := Option.map_eq_some_iff.mp h
  cases hm
  exact Nat.min_le_right _ _

/-- A lane ends before the next position that is present (R2). -/
theorem allowedWidth_le {present : LanePos → Bool} {i j : LanePos} (hj : present j = true) (h : i < j) :
    i.val + allowedWidth present i ≤ j.val := by
  have one : 1 ≤ j.val := Nat.lt_of_le_of_lt (Nat.zero_le _) h
  unfold allowedWidth
  split
  case h_1 =>
    split
    case isTrue absent =>
      obtain ⟨h1, h2, h3⟩ := absent
      match j with
      | 1 => exact absurd hj h1
      | 2 => exact absurd hj h2
      | 3 => exact absurd hj h3
    case isFalse =>
      split
      case isTrue h1 =>
        match j with
        | 1 => exact absurd hj h1
        | 2 => exact Nat.le_refl 2
        | 3 => exact Nat.le_succ 2
      case isFalse => exact one
  case h_2 => exact h
  case h_3 =>
    split
    case isTrue h3 =>
      match j with
      | 3 => exact absurd hj h3
    case isFalse => exact h
  case h_4 => exact h

/-- The lanes of a plan that is read from a payload are apart (R2). -/
theorem planOf_lanesApart {p : List Byte} {q : QuadId} {plan : Plan} (h : planOf p = some (q, plan)) : plan.LanesApart := by
  obtain ⟨-, -, -, -, -, lanes, -⟩ := planOf_some h
  have ends {i j : LanePos} {l m : LanePlan} (hl : plan.lanes[i] = some l) (hm : plan.lanes[j] = some m) (hij : i < j) :
      i.val + l.granted ≤ j.val :=
    Nat.le_trans (Nat.add_le_add_left (granted_le ((lanes i).trans (congrArg some hl))) _)
      (allowedWidth_le (present := fun j => (byteAt p 1).getLsbD j.val) (present_of_planLane ((lanes j).trans (congrArg some hm))) hij)
  intro i j hij l hl m hm slot
  simp only [LanePlan.carries, decide_eq_true_eq]
  rintro ⟨⟨hi, hi'⟩, hj, hj'⟩
  rcases Nat.lt_or_gt_of_ne (Fin.val_ne_of_ne hij) with hlt | hlt
  · have := ends hl hm hlt
    omega
  · have := ends hm hl hlt
    omega

/-! ### The lane that carries a slot (R3) -/

theorem channelSlot_lt (c : Channel) : channelSlot c < 8 := Nat.mod_lt _ (by decide)

/-- With the lanes apart, the lane that is found for a slot is the one that carries it. -/
theorem laneOfSlot_eq_some {plan : Plan} (apart : plan.LanesApart) {slot : Nat} (hs : slot < 8) {i : LanePos} {l : LanePlan} :
    plan.laneOfSlot slot = some (i, l) ↔ plan.lanes[i] = some l ∧ l.carries i slot = true := by
  have found {j : LanePos} {m : LanePlan} (h : plan.laneOfSlot slot = some (j, m)) :
      plan.lanes[j] = some m ∧ m.carries j slot = true := by
    obtain ⟨k, -, hk⟩ := List.exists_of_findSome?_eq_some h
    split at hk
    case h_1 n hn =>
      split at hk
      case isTrue carried =>
        cases hk
        exact ⟨hn, carried⟩
      case isFalse => cases hk
    case h_2 => cases hk
  refine ⟨found, fun ⟨hl, hc⟩ => ?_⟩
  cases hf : plan.laneOfSlot slot with
  | none =>
    have := List.findSome?_eq_none_iff.mp hf i (List.mem_finRange i)
    rw [hl] at this
    simp [hc] at this
  | some f =>
    obtain ⟨j, m⟩ := f
    obtain ⟨hm, hmc⟩ := found hf
    by_cases hij : i = j
    · subst hij
      cases hl.symm.trans hm
      rfl
    · exact absurd ⟨hc, hmc⟩ (apart i j hij l hl m hm ⟨slot, hs⟩)

/-- A channel is an output channel when an OUT lane of its started quad carries it (R3). -/
theorem isOutput_iff {s : State} {c : Channel} (apart : (s.quad (channelQuad c)).LanesApart) : s.isOutput c = true ↔
    ∃ (plan : Plan) (i : LanePos) (l : LanePlan), (s.quad (channelQuad c)).startedPlan = some plan ∧ plan.lanes[i] = some l ∧
      l.carries i (channelSlot c) = true ∧ l.direction = .output := by
  unfold State.isOutput State.channelLane
  cases hq : (s.quad (channelQuad c)) with
  | unplanned => simp [Quad.startedPlan]
  | planned plan => simp [Quad.startedPlan]
  | started plan =>
    have apart : plan.LanesApart := apart plan (by simp [hq, Quad.plan])
    simp only [Quad.startedPlan, Option.some.injEq]
    constructor
    · intro h
      split at h
      case h_1 i l hl =>
        obtain ⟨hi, hc⟩ := (laneOfSlot_eq_some apart (channelSlot_lt c)).mp hl
        exact ⟨plan, i, l, rfl, hi, hc, of_decide_eq_true h⟩
      case h_2 => cases h
    · rintro ⟨_, i, l, rfl, hi, hc, hd⟩
      rw [(laneOfSlot_eq_some apart (channelSlot_lt c)).mpr ⟨hi, hc⟩]
      exact decide_eq_true hd

theorem without_lanes (plan : Plan) (i j : LanePos) : (plan.without i).lanes[j] = if j = i then none else plan.lanes[j] := by
  by_cases h : j = i
  · subst h
    simp [Plan.without]
  · have : i.val ≠ j.val := fun e => h (Fin.ext e.symm)
    simp [Plan.without, h, this]

theorem without_lanesApart {plan : Plan} (h : plan.LanesApart) (i : LanePos) : (plan.without i).LanesApart := by
  intro j k hjk l hl m hm
  rw [without_lanes] at hl hm
  split at hl
  · cases hl
  · split at hm
    · cases hm
    · exact h j k hjk l hl m hm

/-- A lane that leaves the plan takes its own channels with it (R12). -/
theorem isOutput_without {s : State} {q : QuadId} {plan : Plan} {i : LanePos} {l : LanePlan} (hq : s.quad q = .started plan)
    (hl : plan.lanes[i] = some l) (apart : plan.LanesApart) (c : Channel) :
    (s.setQuad q (.started (plan.without i))).isOutput c = (s.isOutput c && !laneChannel q i l c) := by
  by_cases hc : channelQuad c = q
  case neg =>
    have quad : (s.setQuad q (.started (plan.without i))).quad (channelQuad c) = s.quad (channelQuad c) := by
      rw [setQuad_quad, if_neg hc]
    simp [State.isOutput, State.channelLane, quad, laneChannel, hc]
  case pos =>
    subst hc
    have before : s.isOutput c = true ↔ ∃ (j : LanePos) (m : LanePlan), plan.lanes[j] = some m ∧ m.carries j (channelSlot c) = true ∧ m.direction = .output := by
      rw [isOutput_iff (by rw [hq]; rintro _ ⟨⟩; exact apart), hq]
      simp [Quad.startedPlan]
    have after : (s.setQuad (channelQuad c) (.started (plan.without i))).isOutput c = true ↔
        ∃ (j : LanePos) (m : LanePlan), (plan.without i).lanes[j] = some m ∧ m.carries j (channelSlot c) = true ∧ m.direction = .output := by
      rw [isOutput_iff (by rw [setQuad_quad_self]; rintro _ ⟨⟩; exact without_lanesApart apart i), setQuad_quad_self]
      simp [Quad.startedPlan]
    rw [Bool.eq_iff_iff, after, Bool.and_eq_true, before, laneChannel, decide_eq_true rfl, Bool.true_and, Bool.not_eq_true']
    constructor
    · rintro ⟨j, m, hm, hcar, hd⟩
      rw [without_lanes] at hm
      split at hm
      case isTrue => cases hm
      case isFalse hji =>
        refine ⟨⟨j, m, hm, hcar, hd⟩, Bool.eq_false_iff.mpr fun hl' => ?_⟩
        exact apart j i hji m hm l hl ⟨channelSlot c, channelSlot_lt c⟩ ⟨hcar, hl'⟩
    · rintro ⟨⟨j, m, hm, hcar, hd⟩, hnot⟩
      refine ⟨j, m, ?_, hcar, hd⟩
      rw [without_lanes, if_neg ?_]
      · exact hm
      · rintro rfl
        cases hl.symm.trans hm
        rw [hcar] at hnot
        cases hnot

/-- The channels of an IN lane are no output channels. -/
theorem isOutput_of_input {s : State} {q : QuadId} {plan : Plan} {i : LanePos} {l : LanePlan} (hq : s.quad q = .started plan)
    (hl : plan.lanes[i] = some l) (hd : l.direction = .input) (apart : plan.LanesApart) {c : Channel} (hc : laneChannel q i l c = true) :
    s.isOutput c = false := by
  rw [laneChannel, Bool.and_eq_true, decide_eq_true_eq] at hc
  obtain ⟨rfl, hcar⟩ := hc
  simp only [State.isOutput, State.channelLane, hq, Quad.startedPlan,
    (laneOfSlot_eq_some apart (channelSlot_lt c)).mpr ⟨hl, hcar⟩, hd]
  rfl

end Sys2Proof.Machine
end

section
/-! PROOFS. The route table follows the channel set, and the owned channel counts follow the route table (R42, R54, R55). -/

namespace Sys2Proof.Machine

variable {s t : State}

/-- The quads, the route table and the owned channel counts are as they were. -/
structure State.SameRoutes (t s : State) : Prop where
  quads : t.lane.quads = s.lane.quads
  routes : t.mix.routes = s.mix.routes
  owned : ∀ b, (t.bus b).ownedCount = (s.bus b).ownedCount

/-- The plans' lanes are apart, the route table follows the channel set, and the counts follow the route table. -/
structure State.RoutesExact (s : State) : Prop where
  apart : ∀ q, (s.quad q).LanesApart
  follow : s.RoutesFollowChannels
  owned : s.OwnedCountsExact

theorem quad_of_quads (h : t.lane.quads = s.lane.quads) (q : QuadId) : t.quad q = s.quad q := by rw [State.quad, h]; rfl

theorem isOutput_of_quads (h : t.lane.quads = s.lane.quads) (c : Channel) : t.isOutput c = s.isOutput c := by
  simp only [State.isOutput, State.channelLane, quad_of_quads h]

theorem route_of_routes (h : t.mix.routes = s.mix.routes) (c : Channel) : t.route c = s.route c := by rw [State.route, h]; rfl

theorem channelsOwnedBy_congr (h : ∀ c b, t.route c = .owned b ↔ s.route c = .owned b) (b : BusId) :
    t.channelsOwnedBy b = s.channelsOwnedBy b := by
  simp only [State.channelsOwnedBy, h]

theorem State.RoutesExact.of_same (h : s.RoutesExact) (k : t.SameRoutes s) : t.RoutesExact := by
  refine ⟨fun q => quad_of_quads k.quads q ▸ h.apart q, fun c => ?_, fun b => ?_⟩
  · rw [route_of_routes k.routes, isOutput_of_quads k.quads]
    exact h.follow c
  · rw [k.owned, h.owned b, channelsOwnedBy_congr fun c b => by rw [route_of_routes k.routes]]

theorem sameRoutes_of_buses (hq : t.lane.quads = s.lane.quads) (hr : t.mix.routes = s.mix.routes)
    (hb : t.mix.buses = s.mix.buses) : t.SameRoutes s := ⟨hq, hr, fun b => by rw [State.bus, hb]; rfl⟩

theorem sameRoutes_of_mix (hq : t.lane.quads = s.lane.quads) (hm : t.mix = s.mix) : t.SameRoutes s :=
  sameRoutes_of_buses hq (by rw [hm]) (by rw [hm])

theorem State.SameRoutes.trans {u : State} (h : u.SameRoutes t) (k : t.SameRoutes s) : u.SameRoutes s :=
  ⟨h.quads.trans k.quads, h.routes.trans k.routes, fun b => (h.owned b).trans (k.owned b)⟩

/-! ### One entry of the route table changes (R55) -/

/-- Of the channels, one changes and the others count as before. -/
theorem countP_update {α : Type} [DecidableEq α] {l : List α} (nodup : l.Nodup) {c : α} (hc : c ∈ l) {P Q : α → Bool}
    (other : ∀ d, d ≠ c → Q d = P d) :
    l.countP Q = l.countP P - (if P c then 1 else 0) + (if Q c then 1 else 0) := by
  induction l with
  | nil => cases hc
  | cons d rest ih =>
    rw [List.nodup_cons] at nodup
    obtain ⟨fresh, nodup⟩ := nodup
    rw [List.countP_cons, List.countP_cons]
    rcases List.mem_cons.mp hc with rfl | hc
    · have same : rest.countP Q = rest.countP P :=
        List.countP_congr fun d hd => by rw [other d fun e => fresh (e ▸ hd)]
      rw [same]
      omega
    · have ne : d ≠ c := fun e => fresh (e ▸ hc)
      rw [ih nodup hc, other d ne]
      have : (if P c then 1 else 0) ≤ rest.countP P := by
        split
        case isTrue h => exact List.countP_pos_iff.mpr ⟨c, hc, h⟩
        case isFalse => exact Nat.zero_le _
      omega

theorem setRoute_owned (h : s.OwnedCountsExact) (c : Channel) (r : Route) : (s.setRoute c r).OwnedCountsExact := by
  intro b
  have count : (s.setRoute c r).channelsOwnedBy b = s.channelsOwnedBy b - (if (s.route c).owner = some b then 1 else 0) +
      (if r.owner = some b then 1 else 0) := by
    unfold State.channelsOwnedBy
    rw [← List.countP_eq_length_filter, ← List.countP_eq_length_filter,
      countP_update (l := allChannels) (List.nodup_finRange 16) (List.mem_finRange c) (P := fun d => decide (s.route d = .owned b))]
    · simp only [setRoute_route, if_true, decide_eq_true_eq, owner_eq_some]
    · intro d hd
      rw [setRoute_route, if_neg hd]
  rw [setRoute_bus, count, ← h b]

/-- A channel's entry changes without its becoming or ceasing to be ABSENT (R54). -/
theorem State.RoutesExact.setRoute (h : s.RoutesExact) (c : Channel) {r : Route} (hr : r ≠ .absent) (hc : s.route c ≠ .absent) :
    (s.setRoute c r).RoutesExact := by
  have quads : (s.setRoute c r).lane.quads = s.lane.quads := by simp
  refine ⟨fun q => quad_of_quads quads q ▸ h.apart q, fun d => ?_, setRoute_owned h.owned c r⟩
  rw [setRoute_route, isOutput_of_quads quads]
  split
  case isTrue hd => exact hd ▸ iff_of_true hr ((h.follow c).mp hc)
  case isFalse => exact h.follow d

/-! ### Edits (R115, R117) -/

theorem loseRamp_sameRoutes (s : State) (e : Entry) (ap : Option Byte) : (s.loseRamp e ap).SameRoutes s :=
  sameRoutes_of_mix (by simp) (by simp)

theorem lowerEntries_sameRoutes (s : State) (b : BusId) : (s.lowerEntries b).SameRoutes s := by
  refine ⟨by simp, by simp, fun c => ?_⟩
  rw [State.lowerEntries, modifyBus_bus]
  split
  case isTrue h => rw [h]
  case isFalse => rfl

theorem raiseEntries_sameRoutes (s : State) (b : BusId) : (s.raiseEntries b).SameRoutes s := by
  refine ⟨by simp, by simp, fun c => ?_⟩
  rw [State.raiseEntries, modifyBus_bus]
  split
  case isTrue h => rw [h]
  case isFalse => rfl

theorem ownRamp_sameRoutes (s : State) (x : CueContext) : (s.ownRamp x).SameRoutes s := sameRoutes_of_mix (by simp) (by simp)

theorem putEntry_sameRoutes (s : State) (e : Entry) : (s.putEntry e).SameRoutes s :=
  sameRoutes_of_buses (by simp) (by simp) (by simp)

theorem removeEntry_sameRoutes (s : State) (e : Entry) (ap : Option Byte) : (s.removeEntry e ap).SameRoutes s :=
  (loseRamp_sameRoutes _ e ap).trans ((lowerEntries_sameRoutes _ e.bus).trans (sameRoutes_of_buses rfl rfl rfl))

theorem State.RoutesExact.pushFault (h : s.RoutesExact) (f : FaultRecord) : (s.pushFault f).RoutesExact :=
  h.of_same (sameRoutes_of_buses rfl rfl rfl)

theorem State.RoutesExact.applyEdit (h : s.RoutesExact) (x : CueContext) (e : Edit) : (s.applyEdit x e).RoutesExact := by
  unfold State.applyEdit
  split
  case isTrue => exact h.pushFault _
  case isFalse =>
    cases e with
    | gain c b target =>
      show (s.applyGain x c b target).RoutesExact
      unfold State.applyGain
      split
      case h_1 =>
        split
        · exact h.of_same ((ownRamp_sameRoutes _ x).trans ((raiseEntries_sameRoutes _ b).trans (putEntry_sameRoutes _ _)))
        · exact h.pushFault _
      case h_2 => exact h.of_same ((loseRamp_sameRoutes _ _ _).trans ((ownRamp_sameRoutes _ x).trans (putEntry_sameRoutes _ _)))
    | drop c b =>
      show (s.applyDrop x c b).RoutesExact
      unfold State.applyDrop
      split
      case h_1 => exact h
      case h_2 =>
        split
        · exact h.of_same (removeEntry_sameRoutes _ _ _)
        · exact h.of_same ((loseRamp_sameRoutes _ _ _).trans ((ownRamp_sameRoutes _ x).trans (putEntry_sameRoutes _ _)))
    | route c b =>
      show (s.applyRoute x c b).RoutesExact
      unfold State.applyRoute
      split
      case h_1 => exact h
      case h_2 hr => exact h.setRoute c (by simp) (by simp [hr])
      case h_3 hr =>
        split
        · exact h
        · exact (h.setRoute c (by simp) (by simp [hr])).pushFault _
      case h_4 hr => exact (h.setRoute c (by simp) (by simp [hr])).pushFault _
    | unroute c b =>
      show (s.applyUnroute c b).RoutesExact
      unfold State.applyUnroute
      split
      case isTrue hr => exact h.setRoute c (by simp) (by simp [hr])
      case isFalse => exact h
    | delay b d => exact h.of_same (sameRoutes_of_mix (by simp) (by simp))

theorem State.RoutesExact.takeCue (h : s.RoutesExact) (g : GroupId) (n : FrameNo) (x : Byte) : (State.takeCue g n s x).RoutesExact := by
  refine takeCue_rule (P := State.RoutesExact) (Q := fun _ => State.RoutesExact) (fun c _ => ?_) (fun c v e _ hv => hv.applyEdit _ e)
    (fun c u _ hu _ => hu) (fun c u d _ hu _ _ => hu.of_same (sameRoutes_of_mix (by simp) (by simp))) h
  exact h.of_same ⟨by simp [State.beginApplying], by simp [State.beginApplying], fun b => by
    rw [State.beginApplying, modifyCue_bus, releaseHolds_bus]⟩

/-! ### Quads that start and lanes that leave (R9, R12, R13) -/

/-- A quad that is not started has no output channel. -/
theorem isOutput_unstarted {c : Channel} (h : (s.quad (channelQuad c)).startedPlan = none) : s.isOutput c = false := by
  simp only [State.isOutput, State.channelLane, h]

/-- A plan that is stored for a quad that is not started changes no channel (R6). -/
theorem State.RoutesExact.plan (h : s.RoutesExact) {q : QuadId} {plan : Plan} (hq : (s.quad q).startedPlan = none)
    (apart : plan.LanesApart) : (s.setQuad q (.planned plan)).RoutesExact := by
  refine ⟨fun r => ?_, fun c => ?_, h.owned⟩
  · rw [setQuad_quad]
    split
    · rintro _ ⟨⟩
      exact apart
    · exact h.apart r
  · rw [setQuad_route, h.follow c]
    by_cases hc : channelQuad c = q
    · subst hc
      rw [isOutput_unstarted hq, isOutput_unstarted (s := s.setQuad (channelQuad c) (.planned plan)) (by simp [Quad.startedPlan])]
    · simp only [State.isOutput, State.channelLane, setQuad_quad, if_neg hc]

theorem freeOutputs_route (s : State) (q : QuadId) (c : Channel) :
    (s.freeOutputs q).route c = if s.isOutput c && decide (channelQuad c = q) then .free else s.route c := by
  simp [State.route, State.freeOutputs, fillWhere]

/-- The output channels of a quad that starts become FREE; none of them had an entry (R9, R54). -/
theorem State.RoutesExact.startQuad (h : s.RoutesExact) {q : QuadId} {plan : Plan} (hq : s.quad q = .planned plan) :
    (s.startQuad q plan).RoutesExact := by
  have quads : (s.startQuad q plan).lane.quads = (s.setQuad q (.started plan)).lane.quads := by simp [State.startQuad]
  have before {c : Channel} (hc : channelQuad c = q) : s.route c = .absent := by
    refine Classical.byContradiction fun present => ?_
    have := (h.follow c).mp present
    rw [isOutput_unstarted (by rw [hc, hq]; rfl)] at this
    cases this
  refine ⟨fun r => ?_, fun c => ?_, fun b => ?_⟩
  · rw [quad_of_quads quads, setQuad_quad]
    split
    · rintro _ ⟨⟩
      exact h.apart q _ (by simp [hq, Quad.plan])
    · exact h.apart r
  · rw [isOutput_of_quads quads, State.startQuad, freeOutputs_route, setQuad_route]
    by_cases hc : channelQuad c = q
    · rw [before hc]
      cases (s.setQuad q (.started plan)).isOutput c <;> simp [hc]
    · simp only [hc, decide_false, Bool.and_false, Bool.false_eq_true, if_false, h.follow c]
      simp only [State.isOutput, State.channelLane, setQuad_quad, if_neg hc]
  · have buses : (s.startQuad q plan).mix.buses = s.mix.buses := by simp
    rw [State.bus, buses]
    refine (h.owned b).trans (channelsOwnedBy_congr (fun c b => ?_) b).symm
    rw [State.startQuad, freeOutputs_route, setQuad_route]
    split
    case isTrue hc =>
      rw [before (of_decide_eq_true (Bool.and_eq_true _ _ ▸ hc).2)]
      simp
    case isFalse => rfl

/-- The channels of an IN lane have no route entry (R13, R54). -/
theorem State.RoutesExact.retireInputs (h : s.RoutesExact) {q : QuadId} {i : LanePos} {plan : Plan} {l : LanePlan}
    (hq : s.quad q = .started plan) (hl : plan.lanes[i] = some l) (hd : l.direction = .input) (chosen : Channel → Bool) :
    ((s.setQuad q (.started (plan.without i))).retireInputs chosen).RoutesExact := by
  have apart : plan.LanesApart := h.apart q _ (by simp [hq, Quad.plan])
  have quad : (s.setQuad q (.started (plan.without i))).RoutesExact := by
    refine ⟨fun r => ?_, fun c => ?_, h.owned⟩
    · rw [setQuad_quad]
      split
      · rintro _ ⟨⟩
        exact without_lanesApart apart i
      · exact h.apart r
    · rw [setQuad_route, h.follow c, isOutput_without hq hl apart c]
      cases hc : laneChannel q i l c with
      | true => simp [isOutput_of_input hq hl hd apart hc]
      | false => simp
  refine quad.of_same ⟨by simp, by simp, fun b => by rw [retireInputs_bus]⟩

/-- Entries become ABSENT one after another. -/
theorem absents_route (cs : List Channel) (s : State) (c : Channel) :
    (cs.foldl (fun v d => v.setRoute d .absent) s).route c = if c ∈ cs then .absent else s.route c := by
  induction cs generalizing s with
  | nil => simp
  | cons d rest ih =>
    rw [List.foldl_cons, ih, setRoute_route]
    by_cases hd : c = d <;> by_cases hr : c ∈ rest <;> simp [hd, hr]

theorem retireOutputs_route (s : State) (chosen : Channel → Bool) (c : Channel) :
    (s.retireOutputs chosen).route c = if chosen c then .absent else s.route c := by
  have chose : c ∈ allChannels.filter chosen ↔ chosen c = true := by simp [allChannels]
  have route : ((s.clearOutputs chosen).silence chosen).route c = s.route c := by simp
  rw [State.retireOutputs, absents_route]
  simp only [chose, route]

/-- The channels of an OUT lane leave the route table with the lane (R13, R54). -/
theorem State.RoutesExact.retireOutputs (h : s.RoutesExact) {q : QuadId} {i : LanePos} {plan : Plan} {l : LanePlan}
    (hq : s.quad q = .started plan) (hl : plan.lanes[i] = some l) :
    ((s.setQuad q (.started (plan.without i))).retireOutputs (laneChannel q i l)).RoutesExact := by
  have apart : plan.LanesApart := h.apart q _ (by simp [hq, Quad.plan])
  have quads : ((s.setQuad q (.started (plan.without i))).retireOutputs (laneChannel q i l)).lane.quads =
      (s.setQuad q (.started (plan.without i))).lane.quads := by simp
  refine ⟨fun r => ?_, fun c => ?_, ?_⟩
  · rw [quad_of_quads quads, setQuad_quad]
    split
    · rintro _ ⟨⟩
      exact without_lanesApart apart i
    · exact h.apart r
  · rw [isOutput_of_quads quads, retireOutputs_route, setQuad_route, isOutput_without hq hl apart c]
    cases hc : laneChannel q i l c with
    | true => simp
    | false => simpa using h.follow c
  · unfold State.retireOutputs
    refine foldl_preserves (P := State.OwnedCountsExact) (fun v c hv => setRoute_owned hv c .absent) _ ?_
    exact h.owned

/-! ### Every step (O57) -/

/-- After either reset nothing is planned, and no channel has a route entry (R54, R81). -/
theorem routesExact_of_reset (hl : s.lane = LaneInterface.reset) (hm : s.mix = MixEngine.reset) : s.RoutesExact := by
  have quad (q : QuadId) : s.quad q = .unplanned := by
    rw [State.quad, hl]
    cases q <;> rfl
  have route (c : Channel) : s.route c = .absent := by
    rw [State.route, hm]
    show (Vector.replicate 16 Route.absent)[c.val] = _
    rw [Vector.getElem_replicate]
  refine ⟨fun q p hp => ?_, fun c => ?_, fun b => ?_⟩
  · rw [quad] at hp
    cases hp
  · rw [route, isOutput_unstarted (by rw [quad]; rfl)]
    simp
  · rw [State.bus, hm, reset_bus]
    refine (List.length_eq_zero_iff.mpr (List.filter_eq_nil_iff.mpr fun c _ => ?_)).symm
    rw [route, decide_eq_true_iff]
    exact Route.noConfusion

theorem effect_routesExact {u : State} (h : RequestEffect s u) (hs : s.RoutesExact) : u.RoutesExact := by
  cases h
  case plan p q plan hp hq => exact hs.plan hq (planOf_lanesApart hp)
  case start q plan hq hj => exact (hs.startQuad hq).of_same (sameRoutes_of_mix (by simp) (by simp))
  case startJoined q plan hq hj hA => exact (hs.startQuad hq).of_same (sameRoutes_of_mix (by simp) (by simp))
  case retireInputs q i plan l hq hl hd => exact hs.retireInputs hq hl hd _
  case retireOutputs q i plan l hq hl hd => exact hs.retireOutputs hq hl
  case free c hc => exact hs.setRoute c (by simp) hc
  case settings b group rounding overflow =>
    refine hs.of_same ⟨rfl, rfl, fun c => ?_⟩
    rw [modifyBus_bus]
    split
    case isTrue h => rw [h]
    case isFalse => rfl
  case clips mask => exact hs.of_same ⟨rfl, rfl, fun c => by rw [clearClips_bus]⟩
  case enter p c hp hnew hroom hpool =>
    exact hs.of_same ⟨by simp [State.enterCue], by simp [State.enterCue], fun b => by
      rw [show (s.enterCue c).bus b = (s.takeHolds c.edits).bus b from rfl, takeHolds_bus]⟩
  case withdraw tags => exact hs.of_same ⟨by simp, by simp, fun b => by rw [withdrawCues_bus]⟩
  case restart b l hl =>
    unfold State.restartLine
    cases l.state <;> exact hs.of_same (sameRoutes_of_buses (by simp) (by simp) (by simp))
  all_goals exact hs.of_same (sameRoutes_of_buses (by simp [State.addLine, State.dropLine]) (by simp [State.addLine, State.dropLine])
    (by simp [State.addLine, State.dropLine]))

theorem exec_routesExact {c : Instr} (h : exec c s = .next t) (hs : s.RoutesExact) : t.RoutesExact := by
  by_cases hr : ∃ r, requestOf c = some r
  case pos =>
    obtain ⟨r, hr⟩ := hr
    exact request_preserves (P := State.RoutesExact) (fun _ _ h => h.of_same (sameRoutes_of_buses rfl rfl rfl))
      (fun _ _ => effect_routesExact) (fun v _ => routesExact_of_reset rfl rfl) hr h hs
  case neg =>
    have same (quads : t.lane.quads = s.lane.quads) (mix : t.mix = s.mix) : t.RoutesExact := hs.of_same (sameRoutes_of_mix quads mix)
    have lanes (k : t.KeepsBeyondLanes s) : t.RoutesExact := hs.of_same (sameRoutes_of_buses k.quads k.routes k.buses)
    have memory (k : t.KeepsBeyondMemory s) : t.RoutesExact := hs.of_same (sameRoutes_of_buses (by rw [k.lane]) k.routes k.buses)
    cases c
    case transferBegin => obtain ⟨l, rfl, -⟩ := transferBegin_link h; exact same rfl rfl
    case twoWireWriteAddress => obtain ⟨l, rfl, -⟩ := twoWireWriteAddress_link h; exact same rfl rfl
    case transferEnd => obtain ⟨l, rfl, -⟩ := transferEnd_link h; exact same rfl rfl
    case outgoingFrameComplete => obtain ⟨l, rfl, -⟩ := outgoingFrameComplete_link h; exact same rfl rfl
    case hardwareReset => cases h; exact routesExact_of_reset rfl rfl
    case resetRelease =>
      obtain rfl | ⟨-, rfl⟩ := resetRelease_cases h
      · exact hs
      · exact same rfl rfl
    case wordSelectEdge => exact lanes (wordSelectEdge_keeps h)
    case wordComplete => exact lanes (wordComplete_keeps h)
    case lossTimerExpiry => exact lanes (lossTimerExpiry_keeps h)
    case frameStart => exact lanes (frameStart_keeps h)
    case exchangeVisit => exact memory (exchangeVisit_keeps h).1
    case passReadOffer => exact memory (passReadOffer_keeps h).1
    case passWriteOffer => exact memory (passWriteOffer_keeps h).1
    case dramReadComplete => exact memory (dramReadComplete_keeps h).1
    case dramWriteComplete => exact memory (dramWriteComplete_keeps h).1
    case refreshDue => exact memory (refreshDue_keeps h).1
    case refreshComplete => exact memory (refreshComplete_keeps h).1
    case clearWrite => exact memory (clearWrite_keeps h).1
    case pinEdge =>
      obtain ⟨-, -, -, hlane, -, hmix, -⟩ := pinEdge_keeps h
      exact same (by rw [hlane]) hmix
    case cueStart g =>
      simp only [exec, execCueStart, Host.Outcome.next.injEq] at h
      split at h
      case h_1 => exact h ▸ hs
      case h_2 p _ =>
        have taken : ((s.dueTags g p.frame).foldl (State.takeCue g p.frame) s).RoutesExact :=
          foldl_preserves (P := State.RoutesExact) (fun v x hv => hv.takeCue g p.frame x) _ hs
        split at h
        · exact h ▸ taken.of_same (sameRoutes_of_buses (by simp) (by simp) (by simp))
        · exact h ▸ taken.of_same (sameRoutes_of_buses (by simp) (by simp) (by simp))
    case gainStep g =>
      simp only [exec, execGainStep, Host.Outcome.next.injEq] at h
      split at h
      case h_1 => exact h ▸ hs
      case h_2 =>
        subst h
        refine hs.of_same ⟨by simp [endRamps_frame], by simp [endRamps_frame], fun b => ?_⟩
        have bus (v : State) (f : Pass → Pass) : (v.modifyPass g f).bus b = v.bus b := by simp [State.bus]
        rw [bus, endRamps_bus]
        rfl
    case accumulate g =>
      obtain ⟨k, -, -, hroutes, -⟩ := accumulate_keeps h
      refine hs.of_same ⟨by rw [k.lane], hroutes, fun b => ?_⟩
      obtain ⟨clip, hb⟩ := accumulate_bus h b
      rw [hb]
    all_goals exact absurd ⟨_, rfl⟩ hr

/-- Settles O57: a channel enters the route table when its quad starts and leaves it with its lane, and every change of an entry moves the counts of its owners. -/
theorem stepKeepsRoutes : Obligations.StepKeepsRoutes := by
  rintro s t ⟨hA, hB, follow, owned⟩ h
  have kept : t.RoutesExact := step_preserves (P := State.RoutesExact)
    (fun _ _ h => h.of_same (sameRoutes_of_buses rfl rfl rfl)) (fun _ _ _ => exec_routesExact) h
    ⟨fun q => by
      cases q with
      | A => exact hA
      | B => exact hB, follow, owned⟩
  exact ⟨kept.apart .A, kept.apart .B, kept.follow, kept.owned⟩

end Sys2Proof.Machine
end

section
/-! PROOFS. The groups' records after each of their operations (R14 to R23). -/

namespace Sys2Proof.Machine

variable {s t : State}

theorem PerLetter.set_set {α : Type} (p : PerLetter α) (l : Letter) (x y : α) : (p.set l x).set l y = p.set l y := by
  cases l <;> rfl

theorem group_of_groups (h : t.lane.groups = s.lane.groups) (g : GroupId) : t.group g = s.group g := by rw [State.group, h]; rfl

/-- The records when that of one group has been replaced. -/
theorem group_of_set {g : GroupId} {G : ClockGroup} (h : t.lane.groups = s.lane.groups.set g G) (o : GroupId) :
    t.group o = if o = g then G else s.group o := by
  rw [State.group, h]
  exact setGroup_group s g o G

theorem setGroup_groups (s : State) (g : GroupId) (G : ClockGroup) : (s.setGroup g G).lane.groups = s.lane.groups.set g G := rfl

theorem acquire_groups (s : State) (g : GroupId) : (s.acquire g).lane.groups = s.lane.groups.set g { s.group g with
    state := .acquiring, count := 0, half := none, goodLeft := false, startDue := false, startMade := false, lossTimer := true } := rfl

theorem startGroup_groups (s : State) (g : GroupId) : (s.startGroup g).lane.groups = s.lane.groups.set g { s.group g with
    state := .acquiring, count := 0, half := none, goodLeft := false, startDue := false, startMade := false,
    counter := 0, lossTimer := true } := by
  simp only [State.startGroup, acquire_groups, setGroup_groups, setGroup_group_self, PerLetter.set_set]

theorem departLocked_groups (s : State) (g : GroupId) : (s.departLocked g).lane.groups = s.lane.groups.set g { s.group g with
    markOut := if (s.group g).markMode = .pulse then false else (s.group g).markOut } := by
  simp only [State.departLocked, driveJoined_frame, markLeftLocked_frame, silence_lane, setGroup_groups]

theorem haltGroup_groups (s : State) (g : GroupId) (st : GroupState) :
    (s.haltGroup g st).lane.groups = s.lane.groups.set g { s.group g with
      state := st, count := 0, half := none, goodLeft := false, startDue := false, startMade := false, lossTimer := false,
      markOut := (s.group g).markOut && !(decide ((s.group g).state = .locked ∧ (s.group g).markMode = .pulse)) } := by
  have halted (u : State) : (((u.emptyCapture (u.isInputOf g)).setGroup g { (u.emptyCapture (u.isInputOf g)).group g with
      state := st, count := 0, half := none, goodLeft := false, startDue := false, startMade := false,
      lossTimer := false }).occur .lock .live).lane.groups = u.lane.groups.set g { u.group g with
      state := st, count := 0, half := none, goodLeft := false, startDue := false, startMade := false, lossTimer := false } := by
    simp only [occur_lane, setGroup_groups, emptyCapture_lane, emptyCapture_group]
  unfold State.haltGroup
  split
  case isTrue locked =>
    refine (halted (s.departLocked g)).trans ?_
    rw [departLocked_groups, PerLetter.set_set, group_of_set (departLocked_groups s g), if_pos rfl]
    by_cases pulse : (s.group g).markMode = .pulse <;> simp [locked, pulse]
  case isFalse unlocked =>
    refine (halted s).trans ?_
    simp [unlocked]

theorem beginHalf_groups (s : State) (g : GroupId) (side : Side) : (s.beginHalf g side).lane.groups =
    s.lane.groups.set g { s.group g with half := some { side := side, length := 0 } } := by
  simp only [State.beginHalf, setGroup_groups, emptyCapture_lane, emptyCapture_group]

theorem enterLocked_groups (s : State) (g : GroupId) : (s.enterLocked g).lane.groups =
    s.lane.groups.set g { s.group g with state := .locked, count := 0 } := by
  simp only [State.enterLocked, occur_lane, setGroup_groups, clearOutputs_lane, clearOutputs_group]

theorem compareMark_groups (s : State) (g : GroupId) : (s.compareMark g).lane.groups = s.lane.groups.set g { s.group g with
    markOut := if (s.group g).counter = (s.group g).mark then true
      else if (s.group g).markMode = .pulse then false else (s.group g).markOut } := by
  unfold State.compareMark
  dsimp only
  split
  · rfl
  · rfl

theorem frameArrival_groups (s : State) (g : GroupId) (d : Bool) : (s.frameArrival g d).lane.groups = s.lane.groups.set g { s.group g with
    counter := (s.group g).counter + 1, goodLeft := false, startMade := false, startDue := d && !(s.group g).startMade
    markOut := if (s.group g).counter + 1 = (s.group g).mark then true
      else if (s.group g).markMode = .pulse then false else (s.group g).markOut } := by
  have start (o : GroupId) : (s.startAtEdge g d).group o = s.group o := group_of_groups (by simp) o
  simp only [State.frameArrival, passArrival_frame, compareMark_groups, setGroup_groups, setGroup_group_self, PerLetter.set_set, start,
    startAtEdge_frame]

end Sys2Proof.Machine
end

section
/-! PROOFS. The groups' states follow the quads, and the loss timers follow the groups' states (R5, R8, R11, R14, R15, R18). -/

namespace Sys2Proof.Machine

variable {s t : State}

/-- What a group's record must satisfy, by whether its own quad runs (R11, R14, R15, R18). -/
structure ClockGroup.Sound (G : ClockGroup) (runs : Bool) : Prop where
  off : G.state = .off ↔ runs = false
  timer : G.lossTimer = true ↔ (G.state = .acquiring ∨ G.state = .locked)
  count : G.count < 2
  counting : G.count ≠ 0 → G.state = .acquiring
  half : G.state = .locked → G.half.isSome = true

/-- The groups and the joined flags are as the quads ask. -/
structure State.GroupsSound (s : State) : Prop where
  joined : s.JoinedIsB
  sound : ∀ g, (s.group g).Sound (s.ownQuadRuns g)

theorem groupConsistent_iff (s : State) (g : GroupId) : s.GroupConsistent g ↔ (s.group g).Sound (s.ownQuadRuns g) :=
  ⟨fun ⟨off, timer, count, counting, half⟩ => ⟨off, timer, count, counting, half⟩,
    fun ⟨off, timer, count, counting, half⟩ => ⟨off, timer, count, counting, half⟩⟩

theorem ownQuadRuns_of_quads (h : t.lane.quads = s.lane.quads) (g : GroupId) : t.ownQuadRuns g = s.ownQuadRuns g := by
  simp only [State.ownQuadRuns, quad_of_quads h]

theorem joinedIsB_of_quads (h : t.lane.quads = s.lane.quads) (hs : s.JoinedIsB) : t.JoinedIsB := by
  simpa only [State.JoinedIsB, State.bJoined, quad_of_quads h] using hs

theorem State.GroupsSound.of_same (h : s.GroupsSound) (hq : t.lane.quads = s.lane.quads) (hg : t.lane.groups = s.lane.groups) :
    t.GroupsSound :=
  ⟨joinedIsB_of_quads hq h.joined, fun g => by
    rw [group_of_groups hg, ownQuadRuns_of_quads hq]
    exact h.sound g⟩

theorem State.GroupsSound.of_lane (h : s.GroupsSound) (hl : t.lane = s.lane) : t.GroupsSound := h.of_same (by rw [hl]) (by rw [hl])

/-- One group's record is replaced by one that is as sound. -/
theorem State.GroupsSound.of_set (h : s.GroupsSound) (hq : t.lane.quads = s.lane.quads) {g : GroupId} {G : ClockGroup}
    (hg : t.lane.groups = s.lane.groups.set g G) (hG : G.Sound (s.ownQuadRuns g)) : t.GroupsSound := by
  refine ⟨joinedIsB_of_quads hq h.joined, fun o => ?_⟩
  rw [group_of_set hg, ownQuadRuns_of_quads hq]
  split
  case isTrue ho => exact ho ▸ hG
  case isFalse => exact h.sound o

/-- A record that differs in other fields only is as sound. -/
theorem ClockGroup.Sound.retouch {G H : ClockGroup} {runs : Bool} (h : G.Sound runs) (state : H.state = G.state) (count : H.count = G.count)
    (timer : H.lossTimer = G.lossTimer) (half : G.half.isSome = true → H.half.isSome = true) : H.Sound runs := by
  constructor
  · rw [state]; exact h.off
  · rw [timer, state]; exact h.timer
  · rw [count]; exact h.count
  · rw [count, state]; exact h.counting
  · rw [state]; exact fun hl => half (h.half hl)

/-- A running group that halts: LOST or STANDBY (R14, R17 to R20). -/
theorem ClockGroup.Sound.halted {G H : ClockGroup} {runs : Bool} (h : G.Sound runs) (running : G.state ≠ .off)
    (state : H.state = .lost ∨ H.state = .standby) (count : H.count = 0) (timer : H.lossTimer = false) : H.Sound runs := by
  have hruns : runs = true := by
    cases runs with
    | true => rfl
    | false => exact absurd (h.off.mpr rfl) running
  obtain state | state := state
  all_goals constructor <;> simp [state, count, timer, hruns]

/-- A running group that acquires (R9, R15, R19, R20). -/
theorem ClockGroup.Sound.acquires {H : ClockGroup} {runs : Bool} (hr : runs = true) (state : H.state = .acquiring)
    (count : H.count < 2) (timer : H.lossTimer = true) : H.Sound runs := by
  constructor <;> simp [hr, state, count, timer]

theorem ClockGroup.Sound.runs {G : ClockGroup} {runs : Bool} (h : G.Sound runs) (running : G.state ≠ .off) : runs = true := by
  cases runs with
  | true => rfl
  | false => exact absurd (h.off.mpr rfl) running

/-! ### The groups' operations (R14 to R23) -/

theorem State.GroupsSound.acquire (h : s.GroupsSound) {g : GroupId} (running : (s.group g).state ≠ .off) : (s.acquire g).GroupsSound :=
  h.of_set (by simp) (acquire_groups s g) (.acquires ((h.sound g).runs running) rfl Nat.zero_lt_two rfl)

theorem State.GroupsSound.haltGroup (h : s.GroupsSound) {g : GroupId} (running : (s.group g).state ≠ .off) {st : GroupState}
    (hst : st = .lost ∨ st = .standby) : (s.haltGroup g st).GroupsSound :=
  h.of_set (by simp) (haltGroup_groups s g st) ((h.sound g).halted running hst rfl rfl)

theorem State.GroupsSound.slip (h : s.GroupsSound) {g : GroupId} (running : (s.group g).state ≠ .off) : (s.slip g).GroupsSound :=
  State.GroupsSound.haltGroup (s := s.pushFault (FaultRecord.of .slip g (s.group g).counter)) (h.of_lane rfl) running (.inl rfl)

theorem State.GroupsSound.beginHalf (h : s.GroupsSound) (g : GroupId) (side : Side) : (s.beginHalf g side).GroupsSound :=
  h.of_set (by simp) (beginHalf_groups s g side) ((h.sound g).retouch rfl rfl rfl fun _ => rfl)

theorem State.GroupsSound.enterLocked (h : s.GroupsSound) {g : GroupId} (acquiring : (s.group g).state = .acquiring)
    (half : (s.group g).half.isSome = true) : (s.enterLocked g).GroupsSound := by
  refine h.of_set (by simp) (enterLocked_groups s g) ?_
  rw [(h.sound g).runs (by simp [acquiring])]
  have timer := (h.sound g).timer.mpr (.inl acquiring)
  constructor <;> simp [timer, half]

theorem State.GroupsSound.judgeAcquiring (h : s.GroupsSound) {g : GroupId} (acquiring : (s.group g).state = .acquiring)
    (half : (s.group g).half.isSome = true) (side : Side) (good : Bool) : (s.judgeAcquiring g side good).GroupsSound := by
  have runs := (h.sound g).runs (by simp [acquiring])
  have timer := (h.sound g).timer.mpr (.inl acquiring)
  unfold State.judgeAcquiring
  dsimp only
  split
  case isTrue => exact h.of_set rfl (setGroup_groups s g _) (.acquires runs acquiring Nat.zero_lt_two timer)
  case isFalse =>
    split
    case h_1 => exact h.of_set rfl (setGroup_groups s g _) ((h.sound g).retouch rfl rfl rfl id)
    case h_2 =>
      split
      case isTrue => exact h
      case isFalse =>
        split
        case isTrue few => exact h.of_set rfl (setGroup_groups s g _) (.acquires runs acquiring few timer)
        case isFalse =>
          refine State.GroupsSound.enterLocked (s := s.setGroup g { s.group g with goodLeft := false }) ?_ ?_ ?_
          · exact h.of_set rfl (setGroup_groups s g _) ((h.sound g).retouch rfl rfl rfl id)
          · simpa using acquiring
          · simpa using half

theorem State.GroupsSound.judgeLocked (h : s.GroupsSound) (g : GroupId) (side : Side) (d : Bool) :
    (s.judgeLocked g side d).GroupsSound := by
  unfold State.judgeLocked
  split
  · exact h.of_set rfl (setGroup_groups s g _) ((h.sound g).retouch rfl rfl rfl id)
  · split
    · exact h.of_set (by simp) (frameArrival_groups s g d) ((h.sound g).retouch rfl rfl rfl id)
    · exact h

/-! ### The lanes' events -/

theorem wordSelectEdge_groupsSound {g : GroupId} {high : Bool} {n : Nat} (h : exec (.wordSelectEdge g high n) s = .next t)
    (hs : s.GroupsSound) : t.GroupsSound := by
  simp only [exec, execWordSelectEdge, Host.Outcome.next.injEq] at h
  split at h
  case h_1 => exact h ▸ hs
  case h_2 =>
    split at h
    case h_1 => exact h ▸ hs
    case h_2 => exact h ▸ hs
    case h_3 lost => exact h ▸ (hs.acquire (by simp [lost])).beginHalf g _
    case h_4 acquiring =>
      split at h
      case h_1 => exact h ▸ hs.beginHalf g _
      case h_2 half =>
        split at h
        · exact h ▸ (hs.judgeAcquiring acquiring (by simp [half]) _ _).beginHalf g _
        · exact h ▸ hs
    case h_5 locked =>
      split at h
      case h_1 => exact h ▸ hs.beginHalf g _
      case h_2 =>
        split at h
        case isFalse => exact h ▸ hs
        case isTrue =>
          split at h
          · exact h ▸ (hs.judgeLocked g _ _).beginHalf g _
          · exact h ▸ hs.slip (by simp [locked])

theorem lossTimerExpiry_groupsSound {g : GroupId} (h : exec (.lossTimerExpiry g) s = .next t) (hs : s.GroupsSound) :
    t.GroupsSound := by
  simp only [exec, execLossTimerExpiry, Host.Outcome.next.injEq] at h
  split at h
  case isTrue timer =>
    split at h
    case h_1 locked =>
      subst h
      refine State.GroupsSound.haltGroup (s := s.pushFault _) (hs.of_lane rfl) ?_ (.inl rfl)
      rw [pushFault_group, locked]
      simp
    case h_2 acquiring =>
      subst h
      refine hs.of_set rfl (setGroup_groups s g _) ?_
      exact .acquires ((hs.sound g).runs (by simp [acquiring])) acquiring Nat.zero_lt_two timer
    case h_3 => exact h ▸ hs
  case isFalse => exact h ▸ hs

theorem frameStart_groupsSound {g : GroupId} (h : exec (.frameStart g) s = .next t) (hs : s.GroupsSound) : t.GroupsSound := by
  have start (G : ClockGroup) (n : FrameNo) (hG : G.Sound (s.ownQuadRuns g)) : ((s.setGroup g G).frameStartLocked g n).GroupsSound :=
    hs.of_set (by simp) (by simp [setGroup_groups]) hG
  simp only [exec, execFrameStart, Host.Outcome.next.injEq] at h
  split at h
  case h_1 =>
    split at h
    case isTrue =>
      subst h
      exact start _ _ ((hs.sound g).retouch rfl rfl rfl id)
    case isFalse =>
      split at h
      case h_1 =>
        split at h
        case isTrue =>
          split at h
          · subst h
            exact hs.of_set rfl (setGroup_groups s g _) ((hs.sound g).retouch rfl rfl rfl id)
          · subst h
            exact start _ _ ((hs.sound g).retouch rfl rfl rfl fun _ => rfl)
        case isFalse => exact h ▸ hs
      case h_2 => exact h ▸ hs
  case h_2 => exact h ▸ hs

theorem wordComplete_groupsSound {c : Channel} {bits : BitVec 32} (h : exec (.wordComplete c bits) s = .next t)
    (hs : s.GroupsSound) : t.GroupsSound := by
  simp only [exec, execWordComplete, Host.Outcome.next.injEq] at h
  split at h
  case h_1 =>
    split at h
    · subst h
      exact hs.of_set (g := s.groupOfChannel c) rfl (setGroup_groups s _ _) ((hs.sound _).retouch rfl rfl rfl fun _ => rfl)
    · exact h ▸ hs
  case h_2 => exact h ▸ hs

/-! ### Quads that are planned and started (R6, R8 to R10) -/

/-- A quad that is STARTED and not joined. -/
def Quad.runs (Q : Quad) : Bool := Q.startedPlan.any fun p => !p.joined

@[simp] theorem runs_planned (plan : Plan) : (Quad.planned plan).runs = false := rfl

@[simp] theorem runs_started (plan : Plan) : (Quad.started plan).runs = !plan.joined := rfl

/-- A quad that is STARTED with the joined flag set. -/
def Quad.joins (Q : Quad) : Bool := Q.startedPlan.any Plan.joined

theorem ownQuadRuns_eq (s : State) (g : GroupId) : s.ownQuadRuns g = (s.quad g).runs := by
  unfold State.ownQuadRuns Quad.runs
  cases (s.quad g).startedPlan <;> rfl

theorem bJoined_eq (s : State) : s.bJoined = (s.quad .B).joins := by
  unfold State.bJoined Quad.joins
  cases (s.quad .B).startedPlan <;> rfl

theorem ownQuadRuns_setQuad (s : State) (q : QuadId) (Q : Quad) (g : GroupId) : (s.setQuad q Q).ownQuadRuns g =
    if g = q then Q.runs else s.ownQuadRuns g := by
  rw [ownQuadRuns_eq, ownQuadRuns_eq, setQuad_quad, apply_ite Quad.runs]

theorem bJoined_setQuad (s : State) (q : QuadId) (Q : Quad) : (s.setQuad q Q).bJoined = if q = .B then Q.joins else s.bJoined := by
  rw [bJoined_eq, bJoined_eq, setQuad_quad, apply_ite Quad.joins]
  simp only [eq_comm]

/-- What a quad that is replaced must keep to, for the joined flags. -/
theorem joinedIsB_setQuad {q : QuadId} {Q : Quad} (h : s.JoinedIsB) (hA : q = .A → ∀ p ∈ Q.plan, p.joined = false)
    (started : q = .A → s.bJoined = true → Q.startedPlan.isSome = true)
    (hB : q = .B → (∀ p ∈ Q.startedPlan, p.joined = true → (s.quad .A).startedPlan.isSome = true)) : (s.setQuad q Q).JoinedIsB := by
  obtain ⟨plan, start⟩ := h
  cases q with
  | A =>
    rw [State.JoinedIsB, setQuad_quad_self, bJoined_setQuad, if_neg (by decide)]
    exact ⟨hA rfl, started rfl⟩
  | B =>
    rw [State.JoinedIsB, show (s.setQuad .B Q).quad .A = s.quad .A from rfl, bJoined_setQuad, if_pos rfl]
    refine ⟨plan, fun hj => ?_⟩
    cases started : Q.startedPlan with
    | none =>
      rw [Quad.joins, started] at hj
      cases hj
    | some p =>
      rw [Quad.joins, started] at hj
      exact hB rfl p started hj

theorem State.GroupsSound.plan (h : s.GroupsSound) {q : QuadId} {plan : Plan} (hq : (s.quad q).startedPlan = none)
    (hj : ¬(q = .A ∧ plan.joined = true)) : (s.setQuad q (.planned plan)).GroupsSound := by
  refine ⟨joinedIsB_setQuad h.joined ?_ ?_ ?_, fun g => ?_⟩
  · rintro rfl p ⟨⟩
    exact Bool.eq_false_iff.mpr fun hp => hj ⟨rfl, hp⟩
  · rintro rfl hb
    exact absurd (h.joined.2 hb) (by simp [hq])
  · rintro rfl p ⟨⟩
  · rw [setQuad_group, ownQuadRuns_setQuad]
    split
    case isTrue hg =>
      have sound := h.sound g
      rw [ownQuadRuns_eq, hg, Quad.runs, hq] at sound
      exact hg ▸ sound
    case isFalse => exact h.sound g

theorem State.GroupsSound.start (h : s.GroupsSound) {q : QuadId} {plan : Plan} (hj : plan.joined = false) :
    ((s.startQuad q plan).startGroup q).GroupsSound := by
  have quads : ((s.startQuad q plan).startGroup q).lane.quads = (s.setQuad q (.started plan)).lane.quads := by
    simp [State.startQuad]
  refine ⟨joinedIsB_of_quads quads (joinedIsB_setQuad h.joined ?_ ?_ ?_), fun g => ?_⟩
  · rintro - p ⟨⟩
    exact hj
  · exact fun _ _ => rfl
  · rintro - p ⟨⟩ hp
    rw [hj] at hp
    cases hp
  · have groups : ((s.startQuad q plan).startGroup q).lane.groups = s.lane.groups.set q { s.group q with
        state := .acquiring, count := 0, half := none, goodLeft := false, startDue := false, startMade := false,
        counter := 0, lossTimer := true } := by
      have before : (s.startQuad q plan).group q = s.group q := group_of_groups (by simp) q
      rw [startGroup_groups, before]
      simp only [startQuad_frame]
    rw [group_of_set groups, ownQuadRuns_of_quads quads, ownQuadRuns_setQuad]
    split
    · rw [runs_started, hj]
      exact .acquires rfl rfl Nat.zero_lt_two rfl
    · exact h.sound g

theorem State.GroupsSound.startJoined (h : s.GroupsSound) {q : QuadId} {plan : Plan} (hq : s.quad q = .planned plan)
    (hj : plan.joined = true) (hA : (s.quad .A).startedPlan.isSome = true) : (s.startQuad q plan).startJoined.GroupsSound := by
  have quads : (s.startQuad q plan).startJoined.lane.quads = (s.setQuad q (.started plan)).lane.quads := by
    simp [State.startQuad]
  have groups : (s.startQuad q plan).startJoined.lane.groups = s.lane.groups := by simp
  refine ⟨joinedIsB_of_quads quads (joinedIsB_setQuad h.joined ?_ ?_ ?_), fun g => ?_⟩
  · rintro rfl p ⟨⟩
    exact absurd (h.joined.1 plan (by simp [hq, Quad.plan])) (by simp [hj])
  · exact fun _ _ => rfl
  · exact fun _ _ _ _ => hA
  · rw [group_of_groups groups, ownQuadRuns_of_quads quads, ownQuadRuns_setQuad]
    split
    case isTrue hg =>
      have sound := h.sound g
      rw [ownQuadRuns_eq, hg, hq] at sound
      rw [runs_started, hj, hg]
      exact sound
    case isFalse => exact h.sound g

theorem State.GroupsSound.retire (h : s.GroupsSound) {q : QuadId} {plan : Plan} (hq : s.quad q = .started plan) (i : LanePos) :
    (s.setQuad q (.started (plan.without i))).GroupsSound := by
  refine ⟨joinedIsB_setQuad h.joined ?_ ?_ ?_, fun g => ?_⟩
  · rintro rfl p ⟨⟩
    exact h.joined.1 plan (by simp [hq, Quad.plan])
  · exact fun _ _ => rfl
  · rintro rfl p ⟨⟩ hp
    refine h.joined.2 ?_
    rw [State.bJoined, hq]
    exact hp
  · rw [setQuad_group, ownQuadRuns_setQuad]
    split
    case isTrue hg =>
      have : s.ownQuadRuns g = !plan.joined := by rw [ownQuadRuns_eq, hg, hq]; rfl
      have sound := h.sound g
      rw [this] at sound
      exact sound
    case isFalse => exact h.sound g

/-! ### Every step (O58) -/

theorem groupsSound_of_reset (h : s.lane = LaneInterface.reset) : s.GroupsSound := by
  have quad (q : QuadId) : s.quad q = .unplanned := by
    rw [State.quad, h]
    cases q <;> rfl
  have group (g : GroupId) : s.group g = ClockGroup.reset := by
    rw [State.group, h]
    cases g <;> rfl
  refine ⟨⟨fun p hp => ?_, fun hb => ?_⟩, fun g => ?_⟩
  · rw [quad] at hp
    cases hp
  · rw [State.bJoined, quad] at hb
    cases hb
  · rw [group, State.ownQuadRuns, quad]
    constructor <;> simp [ClockGroup.reset, Quad.startedPlan]

theorem effect_groupsSound {u : State} (h : RequestEffect s u) (hs : s.GroupsSound) : u.GroupsSound := by
  cases h
  case plan p q plan hp hq =>
    obtain ⟨-, -, -, -, -, -, hj, -⟩ := planOf_some hp
    exact hs.plan hq hj
  case start q plan hq hj => exact hs.start hj
  case startJoined q plan hq hj hA => exact hs.startJoined hq hj hA
  case retireInputs q i plan l hq hl hd => exact (hs.retire hq i).of_lane (by simp)
  case retireOutputs q i plan l hq hl hd => exact (hs.retire hq i).of_lane (by simp)
  case acquire g hg => exact hs.acquire (by simp [hg])
  case standby g hg => exact hs.haltGroup hg (.inr rfl)
  case mark g mark mode => exact hs.of_set rfl (setGroup_groups s g _) ((hs.sound g).retouch rfl rfl rfl id)
  case restart b l hl =>
    unfold State.restartLine
    cases l.state <;> exact hs.of_lane (by simp)
  case clips => exact hs.of_lane rfl
  all_goals exact hs.of_lane (by simp [State.addLine, State.dropLine, State.enterCue])

theorem exec_groupsSound {c : Instr} (h : exec c s = .next t) (hs : s.GroupsSound) : t.GroupsSound := by
  by_cases hr : ∃ r, requestOf c = some r
  case pos =>
    obtain ⟨r, hr⟩ := hr
    exact request_preserves (P := State.GroupsSound) (fun _ _ h => h.of_lane rfl) (fun _ _ => effect_groupsSound)
      (fun v _ => groupsSound_of_reset rfl) hr h hs
  case neg =>
    cases c
    case transferBegin => obtain ⟨l, rfl, -⟩ := transferBegin_link h; exact hs.of_lane rfl
    case twoWireWriteAddress => obtain ⟨l, rfl, -⟩ := twoWireWriteAddress_link h; exact hs.of_lane rfl
    case transferEnd => obtain ⟨l, rfl, -⟩ := transferEnd_link h; exact hs.of_lane rfl
    case outgoingFrameComplete => obtain ⟨l, rfl, -⟩ := outgoingFrameComplete_link h; exact hs.of_lane rfl
    case hardwareReset => cases h; exact groupsSound_of_reset rfl
    case resetRelease =>
      obtain rfl | ⟨-, rfl⟩ := resetRelease_cases h
      · exact hs
      · exact hs.of_lane rfl
    case wordSelectEdge => exact wordSelectEdge_groupsSound h hs
    case wordComplete => exact wordComplete_groupsSound h hs
    case lossTimerExpiry => exact lossTimerExpiry_groupsSound h hs
    case frameStart => exact frameStart_groupsSound h hs
    case exchangeVisit => exact hs.of_lane (exchangeVisit_keeps h).1.lane
    case passReadOffer => exact hs.of_lane (passReadOffer_keeps h).1.lane
    case passWriteOffer => exact hs.of_lane (passWriteOffer_keeps h).1.lane
    case dramReadComplete => exact hs.of_lane (dramReadComplete_keeps h).1.lane
    case dramWriteComplete => exact hs.of_lane (dramWriteComplete_keeps h).1.lane
    case refreshDue => exact hs.of_lane (refreshDue_keeps h).1.lane
    case refreshComplete => exact hs.of_lane (refreshComplete_keeps h).1.lane
    case clearWrite => exact hs.of_lane (clearWrite_keeps h).1.lane
    case pinEdge =>
      obtain ⟨-, -, -, hlane, -⟩ := pinEdge_keeps h
      exact hs.of_lane hlane
    case cueStart => exact hs.of_lane (cueStart_keeps h).lane
    case gainStep => exact hs.of_lane (gainStep_keeps h).lane
    case accumulate => exact hs.of_lane (accumulate_keeps h).1.lane
    all_goals exact absurd ⟨_, rfl⟩ hr

/-- Settles O58: a group leaves OFF when its own quad starts, and every change of its state sets its timer, its count and its half-frame with it. -/
theorem stepKeepsGroups : Obligations.StepKeepsGroups := by
  rintro s t ⟨joined, hA, hB⟩ h
  have kept : t.GroupsSound := step_preserves (P := State.GroupsSound) (fun _ _ h => h.of_lane rfl) (fun _ _ _ => exec_groupsSound) h
    ⟨joined, fun g => (groupConsistent_iff s g).mp (by
      cases g with
      | A => exact hA
      | B => exact hB)⟩
  exact ⟨kept.joined, (groupConsistent_iff t .A).mpr (kept.sound .A), (groupConsistent_iff t .B).mpr (kept.sound .B)⟩

end Sys2Proof.Machine
end

section
/-! PROOFS. The pass contexts after each operation, and where an offer that waits comes from (R62, R63, R64, R75, R80). -/

namespace Sys2Proof.Machine

variable {s t u : State}

/-! ### The passes (R62) -/

theorem pass_of_passes (h : t.mix.passes = s.mix.passes) (g : GroupId) : t.pass g = s.pass g := by rw [State.pass, h]; rfl

theorem modifyPass_pass (s : State) (g : GroupId) (f : Pass → Pass) (h : GroupId) :
    (s.modifyPass g f).pass h = if h = g then (s.pass g).map f else s.pass h := setPass_pass s g h _

/-- A group that leaves LOCKED tells its pass, and no other (R80). -/
theorem haltGroup_pass (s : State) (g : GroupId) (st : GroupState) (h : GroupId) : (s.haltGroup g st).pass h =
    (s.pass h).map fun p => if h = g ∧ (s.group g).state = .locked then { p with leftLocked := true } else p := by
  have halted : (s.haltGroup g st).pass h = (if (s.group g).state = .locked then s.departLocked g else s).pass h := by
    unfold State.haltGroup
    simp only [occur_pass, setGroup_pass, emptyCapture_pass]
  rw [halted]
  split
  case isTrue locked =>
    have departed : (s.departLocked g).pass h = (s.markLeftLocked g).pass h := by
      have passes : (s.departLocked g).mix.passes = (s.markLeftLocked g).mix.passes := by
        simp [State.departLocked, State.markLeftLocked, State.setPass]
      exact pass_of_passes passes h
    rw [departed, State.markLeftLocked, setPass_pass]
    by_cases hg : h = g
    · simp [hg, locked]
    · simp [hg]
  case isFalse => simp_all

theorem passArrival_pass (s : State) (g : GroupId) (n : FrameNo) (h : GroupId) : (s.passArrival g n).pass h =
    if h = g ∧ s.pass g = none then some {
      frame := n, samples := s.frameSamples g, buses := s.busSet g, outstanding := [], leftLocked := false
      stage := .cueStart, wait := none } else s.pass h := by
  unfold State.passArrival
  split
  case h_1 idle => simp only [setPass_pass, idle, and_true]
  case h_2 p busy => simp [busy]

theorem endPass_pass (s : State) (g h : GroupId) : (s.endPass g).pass h = if h = g then none else s.pass h := setPass_pass s g h none

/-! ### Where an offer comes from (R73, R75) -/

/-- Whatever a pass of `t` still has to offer, the same pass of `s` had. -/
abbrev State.WaitsFrom (t s : State) : Prop := ∀ g, ∀ p ∈ t.pass g, ∀ w ∈ p.wait, ∃ q ∈ s.pass g, w ∈ q.wait

theorem State.WaitsFrom.refl (s : State) : s.WaitsFrom s := fun _ p hp _ hw => ⟨p, hp, hw⟩

theorem State.WaitsFrom.trans (h : u.WaitsFrom t) (k : t.WaitsFrom s) : u.WaitsFrom s := by
  intro g p hp w hw
  obtain ⟨q, hq, hw⟩ := h g p hp w hw
  exact k g q hq w hw

theorem waitsFrom_of_passes (h : t.mix.passes = s.mix.passes) : t.WaitsFrom s := by
  intro g p hp w hw
  rw [pass_of_passes h] at hp
  exact ⟨p, hp, hw⟩

theorem waitsFrom_of_idle (h : ∀ g, t.pass g = none) : t.WaitsFrom s := by
  intro g p hp
  rw [h g] at hp
  cases hp

/-- A pass that is changed without a new offer. -/
theorem modifyPass_waitsFrom (s : State) (g : GroupId) {f : Pass → Pass} (hf : ∀ p, ∀ w ∈ (f p).wait, w ∈ p.wait) :
    (s.modifyPass g f).WaitsFrom s := by
  intro h p hp w hw
  rw [modifyPass_pass] at hp
  split at hp
  case isTrue hg =>
    obtain ⟨q, hq, rfl⟩ := Option.map_eq_some_iff.mp hp
    exact ⟨q, hg ▸ hq, hf q w hw⟩
  case isFalse => exact ⟨p, hp, hw⟩

theorem haltGroup_waitsFrom (s : State) (g : GroupId) (st : GroupState) : (s.haltGroup g st).WaitsFrom s := by
  intro h p hp w hw
  rw [haltGroup_pass] at hp
  obtain ⟨q, hq, rfl⟩ := Option.map_eq_some_iff.mp hp
  refine ⟨q, hq, ?_⟩
  split at hw
  · exact hw
  · exact hw

theorem passArrival_waitsFrom (s : State) (g : GroupId) (n : FrameNo) : (s.passArrival g n).WaitsFrom s := by
  intro h p hp w hw
  rw [passArrival_pass] at hp
  split at hp
  · cases hp
    cases hw
  · exact ⟨p, hp, hw⟩

theorem frameArrival_waitsFrom (s : State) (g : GroupId) (d : Bool) : (s.frameArrival g d).WaitsFrom s :=
  (passArrival_waitsFrom _ g _).trans (waitsFrom_of_passes (by simp))

theorem endPass_waitsFrom (s : State) (g : GroupId) : (s.endPass g).WaitsFrom s := by
  intro h p hp w hw
  rw [endPass_pass] at hp
  split at hp
  · cases hp
  · exact ⟨p, hp, hw⟩

theorem finishPass_waitsFrom (s : State) (g : GroupId) : (s.finishPass g).WaitsFrom s := by
  unfold State.finishPass
  split
  · split
    · exact endPass_waitsFrom s g
    · exact .refl s
  · exact .refl s

theorem valueKnown_waitsFrom (s : State) (g : GroupId) (b : BusId) (v : Sample) : (s.valueKnown g b v).WaitsFrom s := by
  refine State.WaitsFrom.trans (waitsFrom_of_passes (congrArg MixEngine.passes ?_)) (modifyPass_waitsFrom s g (f := fun p =>
    { p.setProgress b (.known v) with outstanding := p.outstanding.filter fun r => decide (r.2 ≠ b) }) fun _ _ hw => hw)
  simp only [State.valueKnown, place_frame]

theorem withdrawOf_waitsFrom (s : State) (g : GroupId) (b : BusId) : (s.withdrawOf g b).WaitsFrom s := by
  unfold State.withdrawOf
  split
  case h_1 => exact .refl s
  case h_2 p hp =>
    split
    case h_1 => exact .refl s
    case h_2 w hw =>
      split
      case isTrue => exact .refl s
      case isFalse =>
        refine (finishPass_waitsFrom _ g).trans ?_
        intro h q hq v hv
        have here : ((s.setPass g (some (match w.read with
            | some _ => { p.setProgress b .withdrawn with wait := none, outstanding := p.outstanding.filter fun r => decide (r.2 ≠ b) }
            | none => { p with wait := none }))).pass h) = some q := hq
        rw [setPass_pass] at here
        split at here
        case isTrue =>
          cases here
          dsimp only at hv
          split at hv
          · cases hv
          · cases hv
        case isFalse => exact ⟨q, here, hv⟩

theorem withdraw_waitsFrom (s : State) (b : BusId) : (s.withdraw b).WaitsFrom s :=
  (withdrawOf_waitsFrom _ .B b).trans (withdrawOf_waitsFrom s .A b)

/-! ### The lanes' events and the stages begin and drop no offer -/

theorem wordSelectEdge_waitsFrom {g : GroupId} {high : Bool} {n : Nat} (h : exec (.wordSelectEdge g high n) s = .next t) :
    t.WaitsFrom s := by
  simp only [exec, execWordSelectEdge, Host.Outcome.next.injEq] at h
  split at h
  case h_1 => exact h ▸ .refl s
  case h_2 plan _ =>
    split at h
    case h_1 => exact h ▸ .refl s
    case h_2 => exact h ▸ .refl s
    case h_3 => exact h ▸ waitsFrom_of_passes (by simp)
    case h_4 =>
      split at h
      case h_1 => exact h ▸ waitsFrom_of_passes (by simp)
      case h_2 =>
        split at h
        · exact h ▸ waitsFrom_of_passes (by simp)
        · exact h ▸ .refl s
    case h_5 =>
      split at h
      case h_1 => exact h ▸ waitsFrom_of_passes (by simp)
      case h_2 half _ =>
        split at h
        case isFalse => exact h ▸ .refl s
        case isTrue =>
          split at h
          case isFalse =>
            subst h
            exact (haltGroup_waitsFrom _ g .lost).trans (waitsFrom_of_passes rfl)
          case isTrue =>
            subst h
            refine State.WaitsFrom.trans (t := s.judgeLocked g half.side plan.firstBitDelay) (waitsFrom_of_passes (by simp)) ?_
            unfold State.judgeLocked
            split
            · exact waitsFrom_of_passes rfl
            · split
              · exact frameArrival_waitsFrom s g _
              · exact .refl s

theorem lossTimerExpiry_waitsFrom {g : GroupId} (h : exec (.lossTimerExpiry g) s = .next t) : t.WaitsFrom s := by
  simp only [exec, execLossTimerExpiry, Host.Outcome.next.injEq] at h
  split at h
  case isTrue =>
    split at h
    · subst h
      exact (haltGroup_waitsFrom _ g .lost).trans (waitsFrom_of_passes rfl)
    · exact h ▸ waitsFrom_of_passes rfl
    · exact h ▸ .refl s
  case isFalse => exact h ▸ .refl s

theorem frameStart_mix {g : GroupId} (h : exec (.frameStart g) s = .next t) : t.mix = s.mix := by
  simp only [exec, execFrameStart, Host.Outcome.next.injEq] at h
  repeat' split at h
  all_goals
    subst h
    simp

theorem wordComplete_mix {c : Channel} {bits : BitVec 32} (h : exec (.wordComplete c bits) s = .next t) : t.mix = s.mix := by
  simp only [exec, execWordComplete, Host.Outcome.next.injEq] at h
  repeat' split at h
  all_goals
    subst h
    rfl

theorem cueStart_waitsFrom {g : GroupId} (h : exec (.cueStart g) s = .next t) : t.WaitsFrom s := by
  simp only [exec, execCueStart, Host.Outcome.next.injEq] at h
  split at h
  case h_1 => exact h ▸ .refl s
  case h_2 p _ =>
    have taken := waitsFrom_of_passes (takeCues_passes g p.frame (s.dueTags g p.frame) s)
    split at h
    · exact h ▸ (endPass_waitsFrom _ g).trans taken
    · subst h
      refine (modifyPass_waitsFrom _ g ?_).trans taken
      exact fun _ _ hw => hw

theorem gainStep_waitsFrom {g : GroupId} (h : exec (.gainStep g) s = .next t) : t.WaitsFrom s := by
  simp only [exec, execGainStep, Host.Outcome.next.injEq] at h
  split at h
  case h_1 => exact h ▸ .refl s
  case h_2 p _ =>
    subst h
    refine (modifyPass_waitsFrom _ g ?_).trans (waitsFrom_of_passes ?_)
    · exact fun _ _ hw => hw
    · simp [endRamps_frame]

theorem accumulate_waitsFrom {g : GroupId} (h : exec (.accumulate g) s = .next t) : t.WaitsFrom s := by
  simp only [exec, execAccumulate, Host.Outcome.next.injEq] at h
  split at h
  case h_1 => exact h ▸ .refl s
  case h_2 p _ =>
    subst h
    refine (modifyPass_waitsFrom _ g ?_).trans (waitsFrom_of_passes ?_)
    · exact fun _ _ hw => hw
    · exact foldl_proj _ (fun v : State => v.mix.passes) (fun v i => by simp) _ _

end Sys2Proof.Machine
end

section
/-! PROOFS. Every address that the memory port and the passes hold lies inside the DRAM, and a hardware reset holds everything (R126, R128, R129, R156, R171). -/

namespace Sys2Proof.Machine

variable {s t : State} {W : Nat}

/-! ### The memory port's addresses (R126, R129) -/

/-- The lines, the queues and the access under way lie inside a DRAM of `W` words, and the lines are apart. -/
structure MemoryPort.Ranged (m : MemoryPort) (W : Nat) : Prop where
  lines : ∀ b : BusId, ∀ l ∈ m.lines[b], l.InRange W
  apart : ∀ b c : BusId, b ≠ c → ∀ l ∈ m.lines[b], ∀ k ∈ m.lines[c], overlaps l.base l.length k = false
  reads : ∀ r ∈ m.readQ, r.address < W
  writes : ∀ w ∈ m.writeQ, w.address < W
  access : ∀ x ∈ m.access, x.inRange W = true

theorem overlaps_symm {b n : Nat} {l : Line} (h : overlaps b n l = false) (k : Line) (hb : k.base = b) (hn : k.length = n) :
    overlaps l.base l.length k = false := by
  simp only [overlaps, decide_eq_false_iff_not, hb, hn] at h ⊢
  rintro ⟨h1, h2⟩
  exact h ⟨h2, h1⟩

/-- The arbiter moves a queued address to the access at most. -/
theorem MemoryPort.Ranged.arbitrate {m : MemoryPort} (h : m.Ranged W) : m.arbitrate.Ranged W := by
  obtain e | ⟨-, e⟩ | ⟨-, r, hr, e⟩ | ⟨-, w, ws, hw, e⟩ := arbitrate_cases m
  · rw [e]
    exact h
  · rw [e]
    exact ⟨h.lines, h.apart, h.reads, h.writes, by rintro _ ⟨⟩; rfl⟩
  · rw [e]
    exact ⟨h.lines, h.apart, fun x hx => h.reads x (List.mem_of_mem_erase hx), h.writes, by
      rintro _ ⟨⟩
      exact decide_eq_true (h.reads r hr)⟩
  · rw [e]
    exact ⟨h.lines, h.apart, h.reads, fun x hx => h.writes x (List.mem_of_mem_tail hx), by
      rintro _ ⟨⟩
      exact decide_eq_true (h.writes w (by simp [hw]))⟩

theorem lines_set (m : MemoryPort) (b c : BusId) (o : Option Line) : (m.lines.set b o)[c] = if c = b then o else m.lines[c] := by
  by_cases h : c = b
  · subst h
    simp
  · have : b.val ≠ c.val := fun e => h (Fin.ext e.symm)
    simp [h, this]

/-- A line that changes within its region. -/
theorem MemoryPort.Ranged.changeLine {m : MemoryPort} (h : m.Ranged W) {b : BusId} {l k : Line} (hl : m.lines[b] = some l)
    (base : k.base = l.base) (length : k.length = l.length) (hk : k.InRange W) :
    ({ m with lines := m.lines.set b (some k) } : MemoryPort).Ranged W := by
  refine ⟨fun c x hx => ?_, fun c d hcd x hx y hy => ?_, h.reads, h.writes, h.access⟩
  · rw [lines_set] at hx
    split at hx
    · cases hx
      exact hk
    · exact h.lines c x hx
  · rw [lines_set] at hx hy
    split at hx
    case isTrue hc =>
      cases hx
      rw [if_neg fun hd => hcd (hc.trans hd.symm)] at hy
      subst hc
      rw [base, length]
      exact h.apart c d hcd l hl y hy
    case isFalse hc =>
      split at hy
      case isTrue hd =>
        cases hy
        subst hd
        have := h.apart c d hcd x hx l hl
        simp only [overlaps, base, length] at this ⊢
        exact this
      case isFalse => exact h.apart c d hcd x hx y hy

/-- A new line inside the DRAM and apart from the others (R129). -/
theorem MemoryPort.Ranged.newLine {m : MemoryPort} (h : m.Ranged W) {b : BusId} {k : Line} (hk : k.InRange W)
    (clear : ∀ (c : BusId) (l : Line), m.lines[c] = some l → overlaps k.base k.length l = false) :
    ({ m with lines := m.lines.set b (some k) } : MemoryPort).Ranged W := by
  refine ⟨fun c x hx => ?_, fun c d hcd x hx y hy => ?_, h.reads, h.writes, h.access⟩
  · rw [lines_set] at hx
    split at hx
    · cases hx
      exact hk
    · exact h.lines c x hx
  · rw [lines_set] at hx hy
    split at hx
    case isTrue hc =>
      cases hx
      rw [if_neg fun hd => hcd (hc.trans hd.symm)] at hy
      exact clear d y hy
    case isFalse hc =>
      split at hy
      case isTrue hd =>
        cases hy
        exact overlaps_symm (clear c x hx) k rfl rfl
      case isFalse => exact h.apart c d hcd x hx y hy

theorem MemoryPort.Ranged.noLine {m : MemoryPort} (h : m.Ranged W) (b : BusId) :
    ({ m with lines := m.lines.set b none } : MemoryPort).Ranged W := by
  have old {c : BusId} {x : Line} (hx : (m.lines.set b none)[c] = some x) : m.lines[c] = some x := by
    rw [lines_set] at hx
    split at hx
    · cases hx
    · exact hx
  exact ⟨fun c x hx => h.lines c x (old hx), fun c d hcd x hx y hy => h.apart c d hcd x (old hx) y (old hy), h.reads, h.writes, h.access⟩

/-- Only the lines, the queues and the access matter. -/
theorem MemoryPort.Ranged.of_eq {m k : MemoryPort} (h : m.Ranged W) (lines : k.lines = m.lines) (reads : k.readQ = m.readQ)
    (writes : k.writeQ = m.writeQ) (access : k.access = m.access) : k.Ranged W := by
  refine ⟨?_, ?_, ?_, ?_, ?_⟩
  · rw [lines]; exact h.lines
  · rw [lines]; exact h.apart
  · rw [reads]; exact h.reads
  · rw [writes]; exact h.writes
  · rw [access]; exact h.access

/-! ### The state's addresses -/

/-- The memory port's addresses and those the passes still have to offer lie inside the DRAM. -/
structure State.Ranged (s : State) : Prop where
  port : s.mem.Ranged s.dramWords
  waits : ∀ g, ∀ p ∈ s.pass g, ∀ w ∈ p.wait, w.InRange s.dramWords

theorem dramWords_of_straps (h : t.straps = s.straps) : t.dramWords = s.dramWords := by rw [State.dramWords, h]; rfl

theorem State.Ranged.of_port (h : s.Ranged) (straps : t.straps = s.straps) (port : t.mem.Ranged s.dramWords) (waits : t.WaitsFrom s) :
    t.Ranged := by
  refine ⟨?_, fun g p hp w hw => ?_⟩
  · rw [dramWords_of_straps straps]
    exact port
  · obtain ⟨q, hq, hw⟩ := waits g p hp w hw
    rw [dramWords_of_straps straps]
    exact h.waits g q hq w hw

/-- Nothing that holds an address has changed, but for offers that have gone. -/
theorem State.Ranged.of_mem (h : s.Ranged) (straps : t.straps = s.straps) (mem : t.mem = s.mem) (waits : t.WaitsFrom s) : t.Ranged :=
  h.of_port straps (mem ▸ h.port) waits

theorem ranged_iff (s : State) : s.Ranged ↔ s.AddressesInRange ∧ s.LinesApart := by
  constructor
  · rintro ⟨⟨lines, apart, reads, writes, access⟩, waits⟩
    exact ⟨⟨lines, reads, writes, access, waits .A, waits .B⟩, apart⟩
  · rintro ⟨⟨lines, reads, writes, access, waitsA, waitsB⟩, apart⟩
    exact ⟨⟨lines, apart, reads, writes, access⟩, fun g => by
      cases g with
      | A => exact waitsA
      | B => exact waitsB⟩

theorem State.Ranged.line (h : s.Ranged) {b : BusId} {l : Line} (hl : s.line b = some l) : l.InRange s.dramWords := h.port.lines b l hl

/-! ### Offers (R73, R75, R135) -/

theorem State.Ranged.admitWrite (h : s.Ranged) {w : WriteRequest} (hw : w.address < s.dramWords) : (s.admitWrite w).Ranged := by
  refine h.of_port (by simp) (MemoryPort.Ranged.arbitrate (m := { s.mem with writeQ := s.mem.writeQ ++ [w] })
    ⟨h.port.lines, h.port.apart, h.port.reads, fun x hx => ?_, h.port.access⟩) (waitsFrom_of_passes (by simp))
  rcases List.mem_append.mp hx with hx | hx
  · exact h.port.writes x hx
  · rw [List.mem_singleton.mp hx]
    exact hw

theorem State.Ranged.admitRead (h : s.Ranged) {r : ReadRequest} (hr : r.address < s.dramWords) : (s.admitRead r).Ranged := by
  refine h.of_port (by simp) (MemoryPort.Ranged.arbitrate (m := { s.mem with readQ := s.mem.readQ ++ [r] })
    ⟨h.port.lines, h.port.apart, fun x hx => ?_, h.port.writes, h.port.access⟩) (waitsFrom_of_passes (by simp))
  rcases List.mem_append.mp hx with hx | hx
  · exact h.port.reads x hx
  · rw [List.mem_singleton.mp hx]
    exact hr

/-- The state with a line changed within its region. -/
theorem State.Ranged.setLine (h : s.Ranged) {b : BusId} {l k : Line} (hl : s.line b = some l) (base : k.base = l.base)
    (length : k.length = l.length) (hk : k.InRange s.dramWords) : (s.setLine b (some k)).Ranged :=
  h.of_port rfl (h.port.changeLine hl base length hk) (waitsFrom_of_passes rfl)

theorem State.Ranged.advanceIndex (h : s.Ranged) (b : BusId) : (s.advanceIndex b).Ranged := by
  unfold State.advanceIndex
  split
  case h_1 l hl =>
    obtain ⟨inside, index, delay, position⟩ := h.line hl
    exact h.setLine hl rfl rfl ⟨inside, Nat.mod_lt _ (Nat.lt_of_le_of_lt (Nat.zero_le _) index), delay, position⟩
  case h_2 => exact h

theorem State.Ranged.offerWrite (h : s.Ranged) (g : GroupId) : (s.offerWrite g).Ranged := by
  unfold State.offerWrite
  split
  case h_1 => exact h
  case h_2 p hp =>
    split
    case h_1 => exact h
    case h_2 w hw =>
      split
      case isTrue =>
        dsimp only
        refine State.Ranged.admitWrite (State.Ranged.advanceIndex ?_ _) ?_
        · refine h.of_port (by simp) ?_ (State.WaitsFrom.trans (waitsFrom_of_passes (t := _) rfl)
            (modifyPass_waitsFrom s g (f := fun p => { p with wait := none }) fun _ _ hw => by cases hw))
          exact h.port.of_eq (by simp) (by simp) (by simp) (by simp)
        · rw [dramWords_of_straps (s := s) (by simp)]
          exact (h.waits g p hp w hw).1
      case isFalse =>
        exact h.of_port rfl (h.port.of_eq rfl rfl rfl rfl) (waitsFrom_of_passes rfl)

theorem State.Ranged.readAccepted (h : s.Ranged) (g : GroupId) : (s.readAccepted g).Ranged := by
  refine ⟨?_, fun o p hp w hw => ?_⟩
  · rw [dramWords_of_straps (s := s) (by simp)]
    exact h.port.of_eq (by simp) (by simp) (by simp) (by simp)
  · have here : (s.modifyPass g fun p => { p with wait := p.wait.map fun w => { w with read := none } }).pass o = some p := hp
    rw [dramWords_of_straps (s := s) (by simp)]
    rw [modifyPass_pass] at here
    split at here
    case isTrue =>
      obtain ⟨q, hq, rfl⟩ := Option.map_eq_some_iff.mp here
      obtain ⟨v, hv, rfl⟩ := Option.map_eq_some_iff.mp hw
      exact ⟨(h.waits g q hq v hv).1, by simp⟩
    case isFalse => exact h.waits o p here w hw

theorem State.Ranged.valueKnown (h : s.Ranged) (g : GroupId) (b : BusId) (v : Sample) : (s.valueKnown g b v).Ranged :=
  h.of_mem (by simp) (by simp) (valueKnown_waitsFrom s g b v)

theorem State.Ranged.finishPass (h : s.Ranged) (g : GroupId) : (s.finishPass g).Ranged :=
  h.of_mem (by simp) (by simp) (finishPass_waitsFrom s g)

theorem State.Ranged.offerRead (h : s.Ranged) (g : GroupId) : (s.offerRead g).Ranged := by
  unfold State.offerRead
  split
  case h_1 => exact h
  case h_2 p hp =>
    split
    case h_1 => exact h
    case h_2 w hw =>
      split
      case h_1 => exact h
      case h_2 a ha =>
        split
        case h_1 => exact ((h.readAccepted g).valueKnown g _ _).offerWrite g
        case h_2 =>
          split
          case isTrue =>
            refine State.Ranged.offerWrite ((h.readAccepted g).admitRead ?_) g
            rw [dramWords_of_straps (s := s) (by simp)]
            exact (h.waits g p hp w hw).2 a ha
          case isFalse => exact h.of_port rfl (h.port.of_eq rfl rfl rfl rfl) (waitsFrom_of_passes rfl)

/-- A pair is fixed at two indices of its bus's line (R73). -/
theorem State.Ranged.exchangeLine (h : s.Ranged) (g : GroupId) (i : PassBus) {l : Line} (hl : s.line i.bus = some l) :
    (s.exchangeLine g i l).Ranged := by
  obtain ⟨inside, index, -, -⟩ := h.line hl
  have delayed : (l.writeIndex + l.length - l.delay) % l.length < l.length := Nat.mod_lt _ (Nat.lt_of_le_of_lt (Nat.zero_le _) index)
  refine State.Ranged.offerRead (s := s.modifyPass g fun p => { p.setProgress i.bus .readOutstanding with
    outstanding := p.outstanding ++ [(l.base + (l.writeIndex + l.length - l.delay) % l.length, i.bus)]
    wait := some { bus := i.bus, read := some (l.base + (l.writeIndex + l.length - l.delay) % l.length),
                   write := l.base + l.writeIndex, value := i.result } }) ?_ g
  refine ⟨?_, fun o p hp w hw => ?_⟩
  · rw [dramWords_of_straps (s := s) (by simp)]
    exact h.port.of_eq (by simp) (by simp) (by simp) (by simp)
  · rw [dramWords_of_straps (s := s) (by simp)]
    rw [modifyPass_pass] at hp
    split at hp
    case isTrue =>
      obtain ⟨q, hq, rfl⟩ := Option.map_eq_some_iff.mp hp
      cases hw
      refine ⟨Nat.lt_of_lt_of_le (Nat.add_lt_add_left index _) inside, ?_⟩
      rintro _ ⟨⟩
      exact Nat.lt_of_lt_of_le (Nat.add_lt_add_left delayed _) inside
    case isFalse => exact h.waits o p hp w hw

theorem State.Ranged.visit (h : s.Ranged) (g : GroupId) (i : PassBus) : (s.visit g i).Ranged := by
  unfold State.visit
  split
  case h_1 => exact h.valueKnown g _ _
  case h_2 l hl =>
    split
    case h_1 => exact h.valueKnown g _ _
    case h_2 =>
      split
      · exact h.valueKnown g _ _
      · exact h.exchangeLine g i hl

theorem State.Ranged.freeDram (h : s.Ranged) : s.freeDram.Ranged :=
  h.of_port (by simp) (MemoryPort.Ranged.arbitrate (m := { s.mem with access := none })
    ⟨h.port.lines, h.port.apart, h.port.reads, h.port.writes, by rintro _ ⟨⟩⟩) (waitsFrom_of_passes (by simp))

/-- The clear engine writes inside its line, and its position stays inside it (R133). -/
theorem State.Ranged.clearStep (h : s.Ranged) {b : BusId} {l : Line} {k : Nat} (hl : s.line b = some l) (hk : l.state = .clearing k) :
    (s.clearStep b l k).Ranged := by
  obtain ⟨inside, index, delay, position⟩ := h.line hl
  have within : k < l.length := by simpa [hk, LineState.positionIn] using position
  have cleared : (l.cleared k).InRange s.dramWords := by
    unfold Line.cleared
    split
    case isTrue more => exact ⟨inside, index, delay, decide_eq_true more⟩
    case isFalse => exact ⟨inside, Nat.lt_of_le_of_lt (Nat.zero_le _) within, delay, rfl⟩
  have region : (l.cleared k).base = l.base ∧ (l.cleared k).length = l.length := by
    unfold Line.cleared
    split
    · exact ⟨rfl, rfl⟩
    · exact ⟨rfl, rfl⟩
  have admitted : ((s.setLine b (some (l.cleared k))).admitWrite { address := l.base + k, value := 0, source := .clearEngine }).Ranged :=
    (h.setLine hl region.1 region.2 cleared).admitWrite (Nat.lt_of_lt_of_le (Nat.add_lt_add_left within _) inside)
  unfold State.clearStep
  dsimp only
  split
  · exact admitted
  · exact admitted.of_port rfl (admitted.port.of_eq rfl rfl rfl rfl) (waitsFrom_of_passes rfl)

/-! ### Requests and edits (R118, R129 to R131) -/

theorem State.Ranged.applyEdit (h : s.Ranged) (x : CueContext) (e : Edit) : (s.applyEdit x e).Ranged := by
  unfold State.applyEdit
  split
  case isTrue => exact h.of_mem rfl rfl (waitsFrom_of_passes rfl)
  case isFalse effective =>
    cases e with
    | gain c b target => exact h.of_mem (by simp) (by simp) (waitsFrom_of_passes (by simp))
    | drop c b => exact h.of_mem (by simp) (by simp) (waitsFrom_of_passes (by simp))
    | route c b => exact h.of_mem (by simp) (by simp) (waitsFrom_of_passes (by simp))
    | unroute c b => exact h.of_mem (by simp) (by simp) (waitsFrom_of_passes (by simp))
    | delay b d =>
      show (s.applyDelay b d).Ranged
      unfold State.applyDelay
      split
      case h_1 => exact h
      case h_2 l hl =>
        obtain ⟨inside, index, -, position⟩ := h.line hl
        have short : d < l.length := by simpa [State.isVoid, hl] using effective
        exact h.setLine hl rfl rfl ⟨inside, index, short, position⟩

theorem State.Ranged.takeCue (h : s.Ranged) (g : GroupId) (n : FrameNo) (x : Byte) : (State.takeCue g n s x).Ranged :=
  takeCue_rule (P := State.Ranged) (Q := fun _ => State.Ranged)
    (fun c _ => h.of_mem (by simp [State.beginApplying]) (by simp [State.beginApplying]) (waitsFrom_of_passes (by simp [State.beginApplying])))
    (fun c v e _ hv => hv.applyEdit _ e) (fun c u _ hu _ => hu)
    (fun c u d _ hu _ _ => hu.of_mem (by simp) (by simp) (waitsFrom_of_passes (by simp))) h

theorem lineLengths_pos {n : Nat} (h : n ∈ lineLengths) : 0 < n := by
  have all : ∀ n ∈ lineLengths, 0 < n := by decide
  exact all n h

theorem State.Ranged.withdraw (h : s.Ranged) (b : BusId) : (s.withdraw b).Ranged :=
  h.of_port (by simp) (h.port.of_eq (by simp) (by simp) (by simp) (by simp)) (withdraw_waitsFrom s b)

theorem effect_ranged {u : State} (h : RequestEffect s u) (hs : s.Ranged) : u.Ranged := by
  cases h
  case define b base length hb hlen hfits hapart =>
    have pos := lineLengths_pos hlen
    have line : ({ base := base, length := length, writeIndex := 0, delay := 0, state := .clearing 0 } : Line).InRange s.dramWords :=
      ⟨hfits, pos, pos, decide_eq_true pos⟩
    exact hs.of_port rfl ((hs.port.newLine (b := b) line hapart).of_eq rfl rfl rfl rfl) (waitsFrom_of_passes rfl)
  case restart b l hl =>
    obtain ⟨inside, index, delay, -⟩ := hs.line hl
    have pos : 0 < l.length := Nat.lt_of_le_of_lt (Nat.zero_le _) index
    have cleared : (s.setLine b (some { l with writeIndex := 0, state := .clearing 0 })).Ranged :=
      hs.setLine hl rfl rfl ⟨inside, pos, delay, decide_eq_true pos⟩
    unfold State.restartLine
    refine State.Ranged.withdraw ?_ b
    split
    · exact cleared.of_port rfl (cleared.port.of_eq rfl rfl rfl rfl) (waitsFrom_of_passes rfl)
    · exact cleared
  case release b =>
    refine State.Ranged.withdraw ?_ b
    exact hs.of_port rfl ((hs.port.noLine b).of_eq rfl rfl rfl rfl) (waitsFrom_of_passes rfl)
  case standby g hg => exact hs.of_mem (by simp) (by simp) (haltGroup_waitsFrom s g .standby)
  case clips mask => exact hs.of_mem rfl rfl (waitsFrom_of_passes rfl)
  all_goals exact hs.of_mem (by simp [State.enterCue]) (by simp [State.enterCue]) (waitsFrom_of_passes (by simp [State.enterCue]))

/-! ### A memory port and a mix engine after a reset (R141) -/

theorem lines_reset {dram : Memory} (b : BusId) : (MemoryPort.reset dram).lines[b] = none := by
  show (Vector.replicate 16 none)[b.val] = none
  rw [Vector.getElem_replicate]

theorem pass_reset (h : s.mix = MixEngine.reset) (g : GroupId) : s.pass g = none := by
  rw [State.pass, h]
  cases g <;> rfl

/-- After a reset the one address left is that of the access under way. -/
theorem ranged_of_reset (hm : s.mix = MixEngine.reset) {dram : Memory} (lines : s.mem.lines = (MemoryPort.reset dram).lines)
    (reads : s.mem.readQ = []) (writes : s.mem.writeQ = []) (access : ∀ x ∈ s.mem.access, x.inRange s.dramWords = true) : s.Ranged := by
  refine ⟨⟨fun b l hl => ?_, fun b c _ l hl => ?_, by simp [reads], by simp [writes], access⟩, fun g p hp => ?_⟩
  · rw [lines, lines_reset] at hl
    cases hl
  · rw [lines, lines_reset] at hl
    cases hl
  · rw [pass_reset hm] at hp
    cases hp

theorem State.Ranged.softReset (h : s.Ranged) : s.softReset.Ranged := by
  refine ranged_of_reset (dram := s.mem.dram) rfl rfl rfl rfl ?_
  intro x hx
  obtain ⟨y, hy, rfl⟩ := Option.map_eq_some_iff.mp hx
  have := h.port.access y hy
  cases y <;> exact this

/-! ### Every command (O59) -/

theorem exec_ranged {c : Instr} (h : exec c s = .next t) (hs : s.Ranged) (running : c ≠ .hardwareReset)
    (held : ∀ x, c ≠ .resetRelease x) : t.Ranged := by
  by_cases hr : ∃ r, requestOf c = some r
  case pos =>
    obtain ⟨r, hr⟩ := hr
    exact request_preserves (P := State.Ranged) (fun _ _ h => ⟨h.port, h.waits⟩) (fun _ _ => effect_ranged)
      (fun _ h => h.softReset) hr h hs
  case neg =>
    have lanes (k : t.KeepsBeyondLanes s) (w : t.WaitsFrom s) : t.Ranged := hs.of_mem k.straps k.mem w
    cases c
    case hardwareReset => exact absurd rfl running
    case resetRelease x => exact absurd rfl (held x)
    case transferBegin => obtain ⟨l, rfl, -⟩ := transferBegin_link h; exact ⟨hs.port, hs.waits⟩
    case twoWireWriteAddress => obtain ⟨l, rfl, -⟩ := twoWireWriteAddress_link h; exact ⟨hs.port, hs.waits⟩
    case transferEnd => obtain ⟨l, rfl, -⟩ := transferEnd_link h; exact ⟨hs.port, hs.waits⟩
    case outgoingFrameComplete => obtain ⟨l, rfl, -⟩ := outgoingFrameComplete_link h; exact ⟨hs.port, hs.waits⟩
    case wordSelectEdge => exact lanes (wordSelectEdge_keeps h) (wordSelectEdge_waitsFrom h)
    case wordComplete => exact lanes (wordComplete_keeps h) (waitsFrom_of_passes (by rw [wordComplete_mix h]))
    case lossTimerExpiry => exact lanes (lossTimerExpiry_keeps h) (lossTimerExpiry_waitsFrom h)
    case frameStart => exact lanes (frameStart_keeps h) (waitsFrom_of_passes (by rw [frameStart_mix h]))
    case pinEdge =>
      obtain ⟨-, -, hstraps, -, -, hmix, -, hmem, -⟩ := pinEdge_keeps h
      exact hs.of_mem hstraps hmem (waitsFrom_of_passes (by rw [hmix]))
    case gainStep g =>
      refine hs.of_mem (gainStep_keeps h).straps ?_ (gainStep_waitsFrom h)
      simp only [exec, execGainStep, Host.Outcome.next.injEq] at h
      split at h
      · rw [h]
      · subst h
        simp [endRamps_frame]
    case accumulate g =>
      obtain ⟨k, hmem, -⟩ := accumulate_keeps h
      exact hs.of_mem k.straps hmem (accumulate_waitsFrom h)
    case cueStart g =>
      simp only [exec, execCueStart, Host.Outcome.next.injEq] at h
      split at h
      case h_1 => exact h ▸ hs
      case h_2 p _ =>
        have taken : ((s.dueTags g p.frame).foldl (State.takeCue g p.frame) s).Ranged :=
          foldl_preserves (P := State.Ranged) (fun v x hv => hv.takeCue g p.frame x) _ hs
        split at h
        · exact h ▸ taken.of_mem (by simp) (by simp) (endPass_waitsFrom _ g)
        · subst h
          refine taken.of_mem (by simp) (by simp) (modifyPass_waitsFrom _ g ?_)
          exact fun _ _ hw => hw
    case exchangeVisit g =>
      simp only [exec, execExchangeVisit, Host.Outcome.next.injEq] at h
      split at h
      case h_1 => exact h ▸ hs
      case h_2 =>
        split at h
        case h_1 => exact h ▸ hs
        case h_2 i _ => exact h ▸ (hs.visit g i).finishPass g
    case passReadOffer g =>
      simp only [exec, execPassReadOffer, Host.Outcome.next.injEq] at h
      split at h
      · exact h ▸ (hs.offerRead g).finishPass g
      · exact h ▸ hs
    case passWriteOffer g =>
      simp only [exec, execPassWriteOffer, Host.Outcome.next.injEq] at h
      split at h
      · exact h ▸ (hs.offerWrite g).finishPass g
      · exact h ▸ hs
    case dramReadComplete =>
      simp only [exec, execDramReadComplete] at h
      split at h
      case h_1 a destination _ _ =>
        split at h
        case isTrue => cases h
        case isFalse =>
          cases destination with
          | none =>
            cases h
            exact hs.freeDram
          | some d =>
            cases h
            exact ((hs.valueKnown d.1 d.2 _).finishPass d.1).freeDram
      case h_2 =>
        cases h
        exact hs
    case dramWriteComplete =>
      simp only [exec, execDramWriteComplete] at h
      split at h
      case h_1 a v _ _ =>
        split at h
        · cases h
        · cases h
          exact State.Ranged.freeDram (s := { s with mem := { s.mem with dram := s.mem.dram.write a v } })
            (hs.of_port rfl (hs.port.of_eq rfl rfl rfl rfl) (waitsFrom_of_passes rfl))
      case h_2 =>
        cases h
        exact hs
    case refreshDue =>
      simp only [exec, execRefreshDue, Host.Outcome.next.injEq] at h
      split at h
      · exact h ▸ hs
      · subst h
        exact hs.of_port (by simp) (MemoryPort.Ranged.arbitrate (m := { s.mem with refreshDue := true })
          (hs.port.of_eq rfl rfl rfl rfl)) (waitsFrom_of_passes (by simp))
    case refreshComplete =>
      simp only [exec, execRefreshComplete, Host.Outcome.next.injEq] at h
      split at h
      · subst h
        exact State.Ranged.freeDram (s := { s with mem := { s.mem with openRow := none } })
          (hs.of_port rfl (hs.port.of_eq rfl rfl rfl rfl) (waitsFrom_of_passes rfl))
      · exact h ▸ hs
    case clearWrite =>
      simp only [exec, execClearWrite, Host.Outcome.next.injEq] at h
      split at h
      case h_1 => exact h ▸ hs
      case h_2 b _ _ =>
        split at h
        case h_1 => exact h ▸ hs
        case h_2 l hl =>
          split at h
          case h_1 => exact h ▸ hs
          case h_2 k hk =>
            split at h
            · exact h ▸ hs.clearStep hl hk
            · exact h ▸ hs
    all_goals exact absurd ⟨_, rfl⟩ hr

/-- No command but the two of RESET changes whether it is held. -/
theorem exec_resetHeld {c : Instr} (h : exec c s = .next t) (running : c ≠ .hardwareReset) (held : ∀ x, c ≠ .resetRelease x) :
    t.resetHeld = s.resetHeld := by
  by_cases hr : ∃ r, requestOf c = some r
  case pos =>
    obtain ⟨r, hr⟩ := hr
    refine request_preserves (P := fun v => v.resetHeld = s.resetHeld) (fun _ _ h => h) (fun v u hu hv => ?_) (fun _ h => h) hr h rfl
    rw [← hv]
    cases hu
    case restart b l hl =>
      unfold State.restartLine
      cases l.state <;> simp
    case clips => rfl
    all_goals simp [State.enterCue, State.addLine, State.dropLine]
  case neg =>
    cases c
    case hardwareReset => exact absurd rfl running
    case resetRelease x => exact absurd rfl (held x)
    case transferBegin => obtain ⟨l, rfl, -⟩ := transferBegin_link h; rfl
    case twoWireWriteAddress => obtain ⟨l, rfl, -⟩ := twoWireWriteAddress_link h; rfl
    case transferEnd => obtain ⟨l, rfl, -⟩ := transferEnd_link h; rfl
    case outgoingFrameComplete => obtain ⟨l, rfl, -⟩ := outgoingFrameComplete_link h; rfl
    case wordSelectEdge => exact (wordSelectEdge_keeps h).resetHeld
    case wordComplete => exact (wordComplete_keeps h).resetHeld
    case lossTimerExpiry => exact (lossTimerExpiry_keeps h).resetHeld
    case frameStart => exact (frameStart_keeps h).resetHeld
    case pinEdge => exact (pinEdge_keeps h).2.1
    case cueStart => exact (cueStart_keeps h).resetHeld
    case gainStep => exact (gainStep_keeps h).resetHeld
    case accumulate => exact (accumulate_keeps h).1.resetHeld
    case exchangeVisit => exact (exchangeVisit_keeps h).1.resetHeld
    case passReadOffer => exact (passReadOffer_keeps h).1.resetHeld
    case passWriteOffer => exact (passWriteOffer_keeps h).1.resetHeld
    case dramReadComplete => exact (dramReadComplete_keeps h).1.resetHeld
    case dramWriteComplete => exact (dramWriteComplete_keeps h).1.resetHeld
    case refreshDue => exact (refreshDue_keeps h).1.resetHeld
    case refreshComplete => exact (refreshComplete_keeps h).1.resetHeld
    case clearWrite => exact (clearWrite_keeps h).1.resetHeld
    all_goals exact absurd ⟨_, rfl⟩ hr

/-! ### While RESET is held (R156, R171) -/

/-- A held state, taken apart: what the commands look at first. -/
structure State.Held (s : State) : Prop where
  held : s.resetHeld = true
  quads : ∀ q, s.quad q = .unplanned
  groups : ∀ g, s.group g = ClockGroup.reset
  passes : ∀ g, s.pass g = none
  requests : s.link.requests = []
  transfer : s.link.transfer = none
  clearing : s.mem.clearing = []
  access : s.mem.access = none
  readWait : s.mem.readWait = []
  writeWait : s.mem.writeWait = []

theorem held_of_reset (h : s.HeldAtReset) (held : s.resetHeld = true) : s.Held := by
  obtain ⟨hlane, -, hmix, -, hmem, hlink, -⟩ := h held
  refine ⟨held, fun q => ?_, fun g => ?_, pass_reset hmix, by rw [hlink]; rfl, by rw [hlink]; rfl, by rw [hmem]; rfl, by rw [hmem]; rfl,
    by rw [hmem]; rfl, by rw [hmem]; rfl⟩
  · rw [State.quad, hlane]
    cases q <;> rfl
  · rw [State.group, hlane]
    cases g <;> rfl

/-- The commands that a hardware reset or the board makes. -/
def isPhysical : Instr → Bool
  | .hardwareReset => true
  | .resetRelease _ => true
  | .pinEdge _ _ => true
  | _ => false

/-- While RESET is held every other command leaves the state as it is. -/
theorem exec_held {c : Instr} (hs : s.Held) (physical : isPhysical c = false) (h : exec c s = .next t) : t = s := by
  by_cases hr : ∃ r, requestOf c = some r
  case pos =>
    obtain ⟨r, hr⟩ := hr
    obtain same | ⟨f, hf, -⟩ := exec_request hr h
    · exact same
    · have := hf.2
      rw [hs.requests] at this
      cases this
  case neg =>
    have noPass (g : GroupId) (stage : Stage) : s.passAt g stage = none := by rw [State.passAt, hs.passes g]
    have busy : s.linkIdle = false := by rw [State.linkIdle, hs.held]; rfl
    cases c
    case hardwareReset => cases physical
    case resetRelease => cases physical
    case pinEdge => cases physical
    case transferBegin =>
      simp only [exec, execTransferBegin, busy, Host.Outcome.next.injEq] at h
      exact h.symm
    case twoWireWriteAddress =>
      simp only [exec, execTwoWireWriteAddress, busy, Host.Outcome.next.injEq] at h
      exact (by simpa using h.symm)
    case transferEnd =>
      simp only [exec, execTransferEnd, hs.transfer, Host.Outcome.next.injEq] at h
      exact h.symm
    case outgoingFrameComplete =>
      simp only [exec, execOutgoingFrameComplete, hs.transfer, Host.Outcome.next.injEq] at h
      exact h.symm
    case wordSelectEdge =>
      simp only [exec, execWordSelectEdge, hs.quads, Quad.startedPlan, Host.Outcome.next.injEq] at h
      exact h.symm
    case wordComplete =>
      simp only [exec, execWordComplete, hs.quads, Quad.startedPlan, Host.Outcome.next.injEq] at h
      exact h.symm
    case lossTimerExpiry =>
      simp only [exec, execLossTimerExpiry, hs.groups, ClockGroup.reset, Host.Outcome.next.injEq] at h
      exact h.symm
    case frameStart =>
      simp only [exec, execFrameStart, hs.groups, ClockGroup.reset, Host.Outcome.next.injEq] at h
      exact h.symm
    case cueStart =>
      simp only [exec, execCueStart, noPass, Host.Outcome.next.injEq] at h
      exact h.symm
    case gainStep =>
      simp only [exec, execGainStep, noPass, Host.Outcome.next.injEq] at h
      exact h.symm
    case accumulate =>
      simp only [exec, execAccumulate, noPass, Host.Outcome.next.injEq] at h
      exact h.symm
    case exchangeVisit =>
      simp only [exec, execExchangeVisit, noPass, Host.Outcome.next.injEq] at h
      exact h.symm
    case passReadOffer =>
      simp only [exec, execPassReadOffer, hs.readWait, List.head?_nil, Host.Outcome.next.injEq] at h
      exact (by simpa using h.symm)
    case passWriteOffer =>
      simp only [exec, execPassWriteOffer, hs.writeWait, List.head?_nil, Host.Outcome.next.injEq] at h
      exact (by simpa using h.symm)
    case dramReadComplete =>
      simp only [exec, execDramReadComplete, hs.access, Host.Outcome.next.injEq] at h
      exact h.symm
    case dramWriteComplete =>
      simp only [exec, execDramWriteComplete, hs.access, Host.Outcome.next.injEq] at h
      exact h.symm
    case refreshDue =>
      simp only [exec, execRefreshDue, hs.held, true_or, if_true, Host.Outcome.next.injEq] at h
      exact h.symm
    case refreshComplete =>
      simp only [exec, execRefreshComplete, hs.access, Host.Outcome.next.injEq] at h
      exact h.symm
    case clearWrite =>
      simp only [exec, execClearWrite, hs.clearing, Host.Outcome.next.injEq] at h
      exact h.symm
    all_goals exact absurd ⟨_, rfl⟩ hr

/-- The board gives a pin a level while RESET is held: nothing is sensed (R171). -/
theorem pinEdge_heldAtReset {k : PinId} {change : PinChange} (h : exec (.pinEdge k change) s = .next t) (hs : s.HeldAtReset)
    (held : s.resetHeld = true) : t.HeldAtReset := by
  obtain ⟨hlane, hword, hmix, hcues, hmem, hlink, hfaults, hpins⟩ := hs held
  simp only [exec, execPinEdge, setPin_resetHeld, held, not_true, and_false, if_false, Host.Outcome.next.injEq] at h
  subst h
  refine fun _ => ⟨hlane, hword, hmix, hcues, hmem, hlink, hfaults, ?_⟩
  have pin (j : PinId) : s.pins[j] = GeneralPin.reset s.pins[j].board := by
    rw [hpins]
    simp [State.resetPins, GeneralPin.reset]
  refine Vector.ext fun j hj => ?_
  have after : (s.setPin k { s.pins[k] with board := change.high }).pins[(⟨j, hj⟩ : PinId)] =
      GeneralPin.reset (s.setPin k { s.pins[k] with board := change.high }).pins[(⟨j, hj⟩ : PinId)].board := by
    rw [setPin_pin]
    split
    · rw [pin k]
      rfl
    · exact pin _
  rw [State.resetPins, Vector.getElem_ofFn]
  exact after

/-! ### No step stops -/

/-- A command goes on: the one stop is an access beyond the DRAM, and there is none (R126). -/
theorem exec_next (hs : s.Ranged) (c : Instr) : ∃ t, exec c s = .next t := by
  obtain next | ⟨a, beyond, -, ⟨-, d, f, hacc⟩ | ⟨-, v, f, hacc⟩⟩ := onlyAMissingWordStops.1 c s
  · exact next
  · have := of_decide_eq_true (hs.port.access _ hacc)
    exact absurd this (Nat.not_lt.mpr beyond)
  · have := of_decide_eq_true (hs.port.access _ hacc)
    exact absurd this (Nat.not_lt.mpr beyond)

/-- The addresses are in range, and RESET holds what it holds. -/
structure State.Safe (s : State) : Prop where
  ranged : s.Ranged
  held : s.HeldAtReset

theorem exec_safe {c : Instr} (h : exec c s = .next t) (hs : s.Safe) : t.Safe := by
  by_cases hard : c = .hardwareReset
  · subst hard
    cases h
    refine ⟨ranged_of_reset (dram := s.mem.abandon s.free) rfl rfl rfl rfl (by rintro _ ⟨⟩), fun _ => ?_⟩
    refine ⟨rfl, rfl, rfl, rfl, rfl, rfl, rfl, ?_⟩
    simp [State.resetPins, GeneralPin.reset]
  by_cases release : ∃ x, c = .resetRelease x
  · obtain ⟨x, rfl⟩ := release
    obtain rfl | ⟨held, rfl⟩ := resetRelease_cases h
    · exact hs
    · obtain ⟨-, -, hmix, -, hmem, -⟩ := hs.held held
      refine ⟨ranged_of_reset (dram := s.mem.dram) hmix ?_ ?_ ?_ ?_, fun held => absurd held (by simp)⟩
      · exact congrArg MemoryPort.lines hmem
      · exact congrArg MemoryPort.readQ hmem
      · exact congrArg MemoryPort.writeQ hmem
      · intro y hy
        have none : s.mem.access = none := congrArg MemoryPort.access hmem
        rw [show ({ s with resetHeld := false, straps := x } : State).mem.access = s.mem.access from rfl, none] at hy
        cases hy
  refine ⟨exec_ranged h hs.ranged hard fun x hx => release ⟨x, hx⟩, ?_⟩
  cases held : s.resetHeld with
  | false =>
    intro held'
    rw [exec_resetHeld h hard fun x hx => release ⟨x, hx⟩, held] at held'
    cases held'
  | true =>
    cases physical : isPhysical c with
    | false => exact exec_held (held_of_reset hs.held held) physical h ▸ hs.held
    | true =>
      cases c
      case hardwareReset => exact absurd rfl hard
      case resetRelease x => exact absurd ⟨x, rfl⟩ release
      case pinEdge => exact pinEdge_heldAtReset h hs.held held
      all_goals cases physical

/-- Settles O59: an address enters the memory port and a pass from a line that lies inside the DRAM, and only the pins' levels change while RESET is held. -/
theorem stepKeepsAddressesAndNeverStops : Obligations.StepKeepsAddressesAndNeverStops := by
  rintro s ⟨addresses, apart, held⟩
  have safe : s.Safe := ⟨(ranged_iff s).mpr ⟨addresses, apart⟩, held⟩
  obtain ⟨t, ht⟩ : ∃ t, step s = .next t := by
    unfold step
    split
    · exact ⟨_, rfl⟩
    · next rest _ => exact exec_next (s := { s with pending := rest }) ⟨safe.ranged.port, safe.ranged.waits⟩ _
  have kept : t.Safe := step_preserves (P := State.Safe) (fun _ _ h => ⟨⟨h.ranged.port, h.ranged.waits⟩, h.held⟩)
    (fun _ _ _ => exec_safe) ht safe
  obtain ⟨addresses, apart⟩ := (ranged_iff t).mp kept.ranged
  exact ⟨t, ht, addresses, apart, kept.held⟩

end Sys2Proof.Machine
end

section
/-! PROOFS. The state after reset, the due test, placements and the end of a pass, and a visit without an exchange (R64, R73, R74, R76, R93, R94, R156). -/

namespace Sys2Proof.Machine

/-! ### The state after reset (R156, R171) -/

/-- The reset state holds nothing that a count counts (R39, R53, R83). -/
theorem reset_ledgerEmpty : State.reset.LedgerEmpty := ledgerEmpty_of_reset rfl rfl

theorem reset_routesExact : State.reset.RoutesExact := routesExact_of_reset rfl rfl

theorem reset_groupsSound : State.reset.GroupsSound := groupsSound_of_reset rfl

theorem reset_ranged : State.reset.Ranged := ranged_of_reset (dram := []) rfl rfl rfl rfl (by rintro _ ⟨⟩)

/-- Settles O60: the tables and queues are empty, and the layers above say what follows for the counts, routes, groups and addresses. -/
theorem resetHasEveryInvariant : Obligations.ResetHasEveryInvariant := by
  have ledger := reset_ledgerEmpty
  have routes := reset_routesExact
  have groups := reset_groupsSound
  obtain ⟨addresses, apart⟩ := (ranged_iff State.reset).mp reset_ranged
  have empty : State.reset.mix.xp = [] := rfl
  refine ⟨reset_memory_wf, List.Pairwise.nil, Nat.zero_le _, ⟨Nat.zero_le _, Nat.zero_le _⟩, ⟨Nat.zero_le _, Nat.zero_le _⟩,
    ⟨Nat.zero_le _, Nat.zero_le _⟩, Nat.zero_le _, List.nodup_nil, ?_, ledger.holdCount, ledger.entryCount, routes.owned, ⟨?_, ?_⟩,
    routes.apart .A, routes.apart .B, routes.follow, groups.joined, (groupConsistent_iff _ .A).mpr (groups.sound .A),
    (groupConsistent_iff _ .B).mpr (groups.sound .B), addresses, apart, Bool.noConfusion⟩
  · exact fun c hc => absurd hc List.not_mem_nil
  · exact fun c hc => absurd hc List.not_mem_nil
  · exact fun e he => absurd he List.not_mem_nil

/-- Every place of a vector filled with one value holds it. -/
theorem getElem_replicate {α : Type} {n : Nat} (x : α) (i : Fin n) : (Vector.replicate n x)[i] = x := Vector.getElem_replicate i.isLt

/-- Settles O14: the reset values are those of the blocks, whose vectors hold one value throughout. -/
theorem resetValues : Obligations.ResetValues := by
  refine ⟨fun q => by cases q <;> rfl, fun g => by cases g <;> exact ⟨rfl, rfl, rfl, rfl, rfl, rfl, rfl, rfl, rfl⟩, fun c => ?channel,
    fun b => ⟨reset_bus b, lines_reset (dram := []) b⟩, rfl, rfl, rfl, rfl, rfl, rfl, rfl, rfl, rfl, rfl, fun cls => ?notice, rfl, rfl,
    rfl, fun k => ?pin⟩
  case channel =>
    refine ⟨?_, getElem_replicate _ c, getElem_replicate _ c, getElem_replicate _ c, getElem_replicate _ c⟩
    exact congrArg Capture.count (getElem_replicate (⟨0, 0⟩ : Capture) c)
  case notice => exact getElem_replicate _ cls.index
  case pin =>
    have pin : State.reset.pins[k] = GeneralPin.reset false := getElem_replicate _ k
    rw [pin]
    exact ⟨rfl, rfl, rfl, rfl⟩

/-! ### The due test (R93, R94) -/

/-- A cue that is due waits in the pass's group (R93). -/
theorem isDue_iff {g : GroupId} {n : FrameNo} {c : Cue} (hw : c.state = .waiting) (hg : c.group = g) :
    c.isDue g n = match c.trigger with
      | .atFrame t => decide ((n - t).toNat < 2147483648)
      | .next => !c.deferred
      | .pin _ => c.armed
      | .after _ => false := by
  rw [Cue.isDue, decide_eq_true hw, decide_eq_true hg]
  rfl

theorem waiting_of_isDue {g : GroupId} {n : FrameNo} {c : Cue} (h : c.isDue g n = true) : c.state = .waiting ∧ c.group = g := by
  rw [Cue.isDue, Bool.and_eq_true, Bool.and_eq_true] at h
  exact ⟨of_decide_eq_true h.1.1, of_decide_eq_true h.1.2⟩

/-- A frame number is less than half the circle past another exactly when it is reached from it by that many steps (R94). -/
theorem sub_toNat_lt_iff (n t : FrameNo) : (n - t).toNat < 2147483648 ↔ ∃ k : Nat, k < 2 ^ 31 ∧ n = t + BitVec.ofNat 32 k := by
  constructor
  · intro h
    exact ⟨(n - t).toNat, h, by rw [BitVec.ofNat_toNat, BitVec.setWidth_eq]; bv_omega⟩
  · rintro ⟨k, hk, rfl⟩
    have back : t + BitVec.ofNat 32 k - t = BitVec.ofNat 32 k := by bv_omega
    rw [back, BitVec.toNat_ofNat]
    omega

/-- Settles O37: the trigger's row of the due test, the circle of frame numbers read as steps from the trigger's own. -/
theorem dueTest : Obligations.DueTest := by
  refine fun g n c => ⟨waiting_of_isDue, fun hw hg => ⟨fun t ht => ?_, fun ht => ?_, fun k ht => ?_, fun t ht => ?_⟩⟩
  all_goals rw [isDue_iff hw hg, ht]
  · exact decide_eq_true_iff.trans (sub_toNat_lt_iff n t)
  · exact (Bool.not_eq_true' c.deferred).to_iff

/-! ### Placements and the end of a pass (R64, R76, R80) -/

section
variable {s : State} {g : GroupId} {p : Pass}

/-- A placement is barred to a pass that learned that its group left LOCKED, while the group is LOCKED again (R80). -/
theorem place_barred (h : s.pass g = some p) (left : p.leftLocked = true) (locked : (s.group g).state = .locked) (b : BusId)
    (v : Sample) : s.place g b v = s := by
  simp [State.place, h, left, locked]

/-- A placement writes the slots of the channels of the group that the bus owns (R76). -/
theorem place_eq (h : s.pass g = some p) (free : ¬(p.leftLocked = true ∧ (s.group g).state = .locked)) (b : BusId) (v : Sample) :
    s.place g b v = { s with word := { s.word with
      outSlot := Vector.ofFn fun c =>
        if s.route c = .owned b ∧ s.groupOfChannel c = g then { value := v, fresh := true } else s.word.outSlot[c] } } := by
  simp only [State.place, h]
  rw [if_neg (by simpa using free)]

/-- A pass is done when its exchange is over and nothing of it is under way (R64). -/
theorem done_iff (p : Pass) : p.done = true ↔
    p.stage = .exchange ∧ p.wait = none ∧ p.outstanding = [] ∧ ∀ i ∈ p.buses, i.progress ≠ .waiting := by
  simp [Pass.done, and_assoc]

/-- A pass that is not done goes on. -/
theorem finishPass_going (h : s.pass g = some p) (going : ¬ p.done = true) : s.finishPass g = s := by
  simp only [State.finishPass, h]
  exact if_neg going

theorem finishPass_done (h : s.pass g = some p) (done : p.done = true) : s.finishPass g = s.endPass g := by
  simp only [State.finishPass, h]
  exact if_pos done

/-- Settles O45: the two cases of a placement, and the two of the end of a pass. -/
theorem placementAndEndOfAPass : Obligations.PlacementAndEndOfAPass := by
  refine ⟨fun s g b v p h => ⟨fun left locked => place_barred h left locked b v, fun free => ?_⟩, fun s g p h => ?_⟩
  · rw [place_eq h free]
    exact ⟨rfl, fun c => by simp⟩
  · refine ⟨fun going => finishPass_going h (mt (done_iff p).mp going), fun done => ?_⟩
    rw [finishPass_done h ((done_iff p).mpr done)]
    rfl

/-! ### A visit (R73, R74) -/

/-- The pass of a group after a bus's delayed value has become known (R62, R138). -/
def Pass.known (b : BusId) (v : Sample) (p : Pass) : Pass :=
  { p with
    buses := p.buses.map fun j => if j.bus = b then { j with progress := .known v } else j
    outstanding := p.outstanding.filter fun r => decide (r.2 ≠ b) }

/-- A placement looks at the pass of the group for nothing but its left LOCKED flag (R80). -/
theorem place_setPass (h : s.pass g = some p) {q : Pass} (left : q.leftLocked = p.leftLocked) (b : BusId) (v : Sample) :
    (s.setPass g (some q)).place g b v = { s.setPass g (some q) with word := (s.place g b v).word } := by
  have hq : (s.setPass g (some q)).pass g = some q := by simp
  by_cases barred : p.leftLocked = true ∧ (s.group g).state = .locked
  · rw [place_barred h barred.1 barred.2, place_barred hq (left.trans barred.1) (by simpa using barred.2)]
    rfl
  · rw [place_eq h barred, place_eq hq (by rw [left]; simpa using barred)]
    rfl

/-- A delayed value that becomes known is recorded in the pass, and the bus is placed (R138, R76). -/
theorem valueKnown_eq (h : s.pass g = some p) (b : BusId) (v : Sample) : s.valueKnown g b v = { s with
    mix := { s.mix with passes := s.mix.passes.set g (some (p.known b v)) }
    word := (s.place g b v).word } := by
  have known : s.valueKnown g b v = (s.setPass g (some (p.known b v))).place g b v := by
    rw [State.valueKnown, State.modifyPass, h]
    rfl
  rw [known, place_setPass h (q := p.known b v) rfl]
  rfl

theorem exec_exchangeVisit (h : s.pass g = some p) (stage : p.stage = .exchange) (wait : p.wait = none) {i : PassBus}
    (next : p.buses.find? (fun j => decide (j.progress = .waiting)) = some i) :
    exec (.exchangeVisit g) s = .next ((s.visit g i).finishPass g) := by
  simp only [exec, execExchangeVisit, State.passAt, h, stage, if_true, Pass.nextBus, wait, next]

end

/-- Settles O46: the visit's line decides between the bus's result and zero, and either is known at once. -/
theorem visitWithoutAnExchange : Obligations.VisitWithoutAnExchange := by
  intro s g p i h stage wait next
  refine ⟨fun line => ?_, fun l line active delay => ?_, fun l c line clearing => ?_⟩
  · rw [exec_exchangeVisit h stage wait next, State.visit, line]
    exact congrArg (fun t => Host.Outcome.next (State.finishPass t g)) (valueKnown_eq h i.bus i.result)
  · rw [exec_exchangeVisit h stage wait next, State.visit, line]
    simp only [active, delay, if_true]
    exact congrArg (fun t => Host.Outcome.next (State.finishPass t g)) (valueKnown_eq h i.bus i.result)
  · rw [exec_exchangeVisit h stage wait next, State.visit, line]
    simp only [clearing]
    exact congrArg (fun t => Host.Outcome.next (State.finishPass t g)) (valueKnown_eq h i.bus 0)

end Sys2Proof.Machine
end

section
/-! PROOFS. The notice set's occurrences and the control link's events: a frame that is complete, a transfer's end and its beginning (R143 to R153, R156 to R158). -/

namespace Sys2Proof.Machine

/-! ### An occurrence (R157, R158) -/

/-- An occurrence of an enabled class touches the notice set and the transfer in progress (R153, R157). -/
theorem Link.occur_enabled {l : Link} {cls : NoticeClass} (h : l.enabled cls = true) (p : NoticePayload) :
    l.occur cls p = { l with notices := (l.occur cls p).notices, transfer := l.transfer.map (Transfer.noteChange cls) } := by
  rw [Link.occur, if_pos h]

/-- An occurrence of a disabled class is nothing (R157). -/
theorem Link.occur_disabled {l : Link} {cls : NoticeClass} (h : l.enabled cls = false) (p : NoticePayload) : l.occur cls p = l :=
  if_neg (by simp [h])

/-- A payload that gathers no mask replaces the one that is stored (R158). -/
theorem merge_latest {old p : NoticePayload} (clip : ∀ n, p ≠ .clip n) (mark : ∀ n, p ≠ .mark n) : old.merge p = p := by
  unfold NoticePayload.merge
  split
  case h_1 m n => exact absurd rfl (clip n)
  case h_2 m n => exact absurd rfl (mark n)
  case h_3 => rfl

/-- Settles O8: a class that is disabled or has no notice, and the merge of the payloads where it has one. -/
theorem occurrencesMakeNotices : Obligations.OccurrencesMakeNotices := by
  intro l cls p
  obtain ⟨requests, replies, overrun, held, addressAck, enable, twoLine⟩ := Link.occur_frame l cls p
  refine ⟨fun h => Link.occur_disabled h p, fun h first => ?_, fun old h pending => ?_, fun d other => ?_, requests, replies, overrun,
    held, enable, twoLine, addressAck, fun h => ?_⟩
  · rw [Link.notice_occur, if_pos ⟨h, rfl⟩, first]
  · refine ⟨old.payload.merge p, ?_, fun m n hm hn => ?_, fun m n hm hn => ?_, merge_latest⟩
    · rw [Link.notice_occur, if_pos ⟨h, rfl⟩, pending]
    · rw [hm, hn]
      rfl
    · rw [hm, hn]
      rfl
  · rw [Link.notice_occur, if_neg fun hd => other hd.2]
  · rw [Link.occur_enabled h]
    rfl

/-! ### A frame that is complete (R153) -/

section
variable {s : State} {x : Transfer} {o : Outgoing}

/-- The frame that has been sent leaves its collection, and nothing but the link learns of it (R153). -/
theorem retireFrame_frame (s : State) (o : Outgoing) :
    s.retireFrame o = { s with link := (s.retireFrame o).link } ∧
    (s.retireFrame o).link.requests = s.link.requests ∧ (s.retireFrame o).link.overrun = s.link.overrun ∧
    (s.retireFrame o).link.enable = s.link.enable ∧ (s.retireFrame o).link.twoLine = s.link.twoLine ∧
    (s.retireFrame o).link.addressAck = s.link.addressAck := by
  unfold State.retireFrame
  split
  case h_1 => exact ⟨rfl, rfl, rfl, rfl, rfl, rfl⟩
  case h_2 cls hc => split <;> exact ⟨rfl, rfl, rfl, rfl, rfl, rfl⟩

/-- A reply that has been sent leaves the reply queue (R153). -/
theorem retireFrame_reply (h : o.source = .reply) (s : State) :
    s.retireFrame o = { s with link := { s.link with replies := s.link.replies.tail } } := by
  rw [State.retireFrame, h]

/-- A notice that has been sent leaves the notice set unless it has changed (R153). -/
theorem retireFrame_notice {cls : NoticeClass} (h : o.source = .notice cls) (s : State) :
    s.retireFrame o = if o.changed then s else { s with link := s.link.dropNotice cls } := by
  rw [State.retireFrame, h]

theorem exec_outgoingFrameComplete (transfer : s.link.transfer = some x) (outgoing : x.outgoing = some o)
    (going : o.complete = false) : exec .outgoingFrameComplete s = .next { s.retireFrame o with
      link := { (s.retireFrame o).link with
        held := none
        transfer := some { x with outgoing := some { o with complete := true } } } } := by
  simp [exec, execOutgoingFrameComplete, transfer, outgoing, going]

/-- Settles O7: the frame's collection loses it, by the frame's source. -/
theorem completeFramesLeave : Obligations.CompleteFramesLeave := by
  intro s x o transfer outgoing going
  obtain ⟨same, requests, overrun, enable, twoLine, addressAck⟩ := retireFrame_frame s o
  refine ⟨_, exec_outgoingFrameComplete transfer outgoing going, ?_, rfl, rfl, rfl, requests, overrun, enable, twoLine, addressAck, rfl,
    fun reply => ?_, fun cls notice => ?_⟩
  · exact congrArg (fun t : State => { t with link := { (s.retireFrame o).link with
      held := none
      transfer := some { x with outgoing := some { o with complete := true } } } }) same
  · rw [retireFrame_reply reply]
    exact ⟨rfl, rfl⟩
  · rw [retireFrame_notice notice]
    cases o.changed with
    | true => exact ⟨rfl, fun d => (if_neg fun hd => Bool.noConfusion hd.2).symm⟩
    | false =>
      refine ⟨rfl, fun d => (Link.notice_dropNotice s.link cls d).trans ?_⟩
      simp

/-! ### The end of a transfer (R145, R149, R151 to R153) -/

/-- The link when a transfer has ended and its bytes have not yet been judged. -/
def Link.ended (l : Link) (x : Transfer) (sent : Nat) : Link := { l with transfer := none, held := heldAfter l.held x.outgoing sent }

theorem exec_transferEnd (transfer : s.link.transfer = some x) (bs : List Byte) (sent : Nat) :
    exec (.transferEnd bs sent) s = .next (State.receive { s with link := s.link.ended x sent } x.form bs) := by
  simp only [exec, execTransferEnd, transfer]
  rfl

/-- A transfer carries a request when it is an SPI interval that does not begin with 00h, or a two-wire write (R143, R144). -/
abbrev Carries (form : TransferForm) (bs : List Byte) : Prop := (form = .spi ∧ bs.head? ≠ some 0) ∨ form = .twoWireWrite

theorem receive_carries {form : TransferForm} {bs : List Byte} (h : Carries form bs) (s : State) :
    s.receive form bs = match judge bs with
      | none => s
      | some f => s.enterRequest form f := by
  refine if_neg fun idle => ?_
  obtain ⟨spi, first⟩ | write := h
  · obtain read | ⟨-, zero⟩ := idle
    · exact TransferForm.noConfusion (spi.symm.trans read)
    · exact first zero
  · obtain read | ⟨spi, -⟩ := idle
    · exact TransferForm.noConfusion (write.symm.trans read)
    · exact TransferForm.noConfusion (write.symm.trans spi)

theorem receive_idle {form : TransferForm} {bs : List Byte} (h : ¬ Carries form bs) (s : State) : s.receive form bs = s := by
  refine if_pos ?_
  cases form with
  | twoWireRead => exact .inl rfl
  | twoWireWrite => exact absurd (.inr rfl) h
  | spi => exact .inr ⟨rfl, Decidable.not_not.mp fun first => h (.inl ⟨rfl, first⟩)⟩

/-- Bytes that are no frame leave the link as the transfer's end has (R145). -/
theorem receive_unjudged {bs : List Byte} (h : judge bs = none) (s : State) (form : TransferForm) : s.receive form bs = s := by
  by_cases carries : Carries form bs
  · rw [receive_carries carries, h]
  · exact receive_idle carries s

/-- READY says whether the request queue has room (R149). -/
theorem ready_iff (s : State) : s.ready = true ↔ s.link.requests.length < 4 := decide_eq_true_iff

/-- The kind of a kind byte is the request kind with that code (R175). -/
theorem kindOf_code (k : RequestKind) : kindOf k.code = some k := by cases k <;> rfl

theorem kindOf_none {b : Byte} (h : ∀ k : RequestKind, k.code ≠ b) : kindOf b = none :=
  List.find?_eq_none.mpr fun k _ => by simpa using h k

/-- R145's table for a frame that is long enough for its check: the check comes first. -/
theorem judge_badCheck {bs : List Byte} (fits : (byteAt bs 2).toNat ≤ 60) (long : (byteAt bs 2).toNat + 4 ≤ bs.length)
    (differs : check (bs.take ((byteAt bs 2).toNat + 3)) ≠ byteAt bs ((byteAt bs 2).toNat + 3)) :
    judge bs = some ⟨.badCheck, byteAt bs 0, byteAt bs 1, []⟩ := by
  unfold judge
  rw [if_neg (by omega), if_neg (Nat.not_lt.mpr fits), if_neg (by omega), if_pos differs]

theorem judge_unknown {bs : List Byte} (fits : (byteAt bs 2).toNat ≤ 60) (long : (byteAt bs 2).toNat + 4 ≤ bs.length)
    (matched : check (bs.take ((byteAt bs 2).toNat + 3)) = byteAt bs ((byteAt bs 2).toNat + 3)) (kind : kindOf (byteAt bs 0) = none) :
    judge bs = some ⟨.unknown, byteAt bs 0, byteAt bs 1, []⟩ := by
  unfold judge
  rw [if_neg (by omega), if_neg (Nat.not_lt.mpr fits), if_neg (by omega), if_neg (not_not_intro matched), kind]

theorem judge_request {bs : List Byte} (fits : (byteAt bs 2).toNat ≤ 60) (long : (byteAt bs 2).toNat + 4 ≤ bs.length)
    (matched : check (bs.take ((byteAt bs 2).toNat + 3)) = byteAt bs ((byteAt bs 2).toNat + 3)) {k : RequestKind}
    (kind : kindOf (byteAt bs 0) = some k) :
    judge bs = some ⟨.request k, byteAt bs 0, byteAt bs 1, (bs.drop 3).take (byteAt bs 2).toNat⟩ := by
  unfold judge
  rw [if_neg (by omega), if_neg (Nat.not_lt.mpr fits), if_neg (by omega), if_neg (not_not_intro matched), kind]

theorem judge_few {bs : List Byte} (h : bs.length < 3) : judge bs = none := if_pos h

theorem judge_tooLong {bs : List Byte} (h : 3 ≤ bs.length) (long : 60 < (byteAt bs 2).toNat) :
    judge bs = some ⟨.tooLong, byteAt bs 0, byteAt bs 1, []⟩ :=
  (if_neg (Nat.not_lt.mpr h)).trans (if_pos long)

theorem judge_short {bs : List Byte} (h : 3 ≤ bs.length) (fits : (byteAt bs 2).toNat ≤ 60)
    (short : bs.length < (byteAt bs 2).toNat + 4) : judge bs = some ⟨.short, byteAt bs 0, byteAt bs 1, []⟩ :=
  (if_neg (Nat.not_lt.mpr h)).trans ((if_neg (Nat.not_lt.mpr fits)).trans (if_pos short))

/-- Settles O5: the transfer's end first settles what is held, then the judged frame enters the queue, is lost, or is none. -/
theorem transferEndJudgesAndReceives : Obligations.TransferEndJudgesAndReceives := by
  refine ⟨fun s x bs sent transfer => ?_, fun bs => ⟨judge_few, judge_tooLong, judge_short, ?badCheck, ?unknown, ?request⟩⟩
  · intro base carries
    have hbase : s.link.ended x sent = base := by
      refine congrArg (fun h => ({ s.link with transfer := none, held := h } : Link)) ?_
      cases x.outgoing with
      | none => rfl
      | some o =>
        cases sent with
        | zero => rfl
        | succ n => simp [heldAfter]
    rw [exec_transferEnd transfer, hbase]
    have room (t : State) : t.link.requests.length < 4 → t.ready = true := (ready_iff t).mpr
    refine ⟨fun idle => ?_, fun unjudged => ?_, fun f carried judged space => ?_, fun f spi first judged full => ?_⟩
    · rw [receive_idle idle]
    · rw [receive_unjudged unjudged]
    · rw [receive_carries carried, judged]
      exact congrArg Host.Outcome.next (if_pos (room _ space))
    · rw [receive_carries (.inl ⟨spi, first⟩), judged]
      exact congrArg Host.Outcome.next ((if_neg fun ready => Nat.not_lt.mpr full ((ready_iff _).mp ready)).trans (if_pos spi))
  case badCheck => exact judge_badCheck
  case unknown => exact fun fits long matched none => judge_unknown fits long matched (kindOf_none none)
  case request => exact fun fits long matched k code => judge_request fits long matched (code ▸ kindOf_code k)

end

end Sys2Proof.Machine
end

section
/-! PROOFS. The beginning of a transfer and what the part then sends (R143, R144, R152, R156). -/

namespace Sys2Proof.Machine

/-! ### What the part sends (R143, R144, R156) -/

section
variable {s : State} {x : Transfer}

theorem outgoingByte_silent (h : s.resetHeld = true ∨ s.link.transfer = none) (i : Nat) : s.outgoingByte i = none := by
  obtain held | idle := h
  · exact if_pos held
  · rw [State.outgoingByte, idle]
    exact ite_self _

theorem outgoingByte_write (transfer : s.link.transfer = some x) (form : x.form = .twoWireWrite) (i : Nat) :
    s.outgoingByte i = none := by
  rw [State.outgoingByte, transfer]
  simp only [form]
  exact ite_self _

/-- In an SPI interval and in a two-wire read the part sends the frame's bytes and then filler (R143, R144). -/
theorem outgoingByte_sends (running : s.resetHeld = false) (transfer : s.link.transfer = some x) (form : x.form ≠ .twoWireWrite)
    (i : Nat) : s.outgoingByte i = some (s.frameByte x.outgoing i) := by
  rw [State.outgoingByte, if_neg (by simp [running]), transfer]
  cases hf : x.form with
  | spi => simp only [hf]
  | twoWireRead => simp only [hf]
  | twoWireWrite => exact absurd hf form

/-- The bits of a byte go out most significant first (R143). -/
theorem outgoingBit_eq (s : State) (i : Nat) (j : Fin 8) :
    s.outgoingBit (8 * i + j.val) = (s.outgoingByte i).map fun b => b.getLsbD (7 - j.val) := by
  have byte : (8 * i + j.val) / 8 = i := by omega
  have bit : (8 * i + j.val) % 8 = j.val := by omega
  rw [State.outgoingBit, byte, bit]
  refine congrArg (fun f => (s.outgoingByte i).map f) (funext fun b => ?_)
  rw [BitVec.getMsbD, decide_eq_true j.isLt, Bool.true_and]

/-- The part leaves SDA alone in SPI mode and while RESET is held (R144, R156). -/
theorem sdaLow_released (h : s.twoWire = false ∨ s.resetHeld = true) (slot : SdaSlot) : s.sdaLow slot = false := by
  obtain spi | held := h
  · simp [State.sdaLow, spi]
  · simp [State.sdaLow, held]

theorem sdaLow_addressAck (wire : s.twoWire = true) (running : s.resetHeld = false) :
    s.sdaLow .addressAck = s.link.addressAck := by
  simp [State.sdaLow, wire, running]

theorem sdaLow_dataAck (wire : s.twoWire = true) (running : s.resetHeld = false) :
    s.sdaLow .dataAck = true ↔ ∃ x, s.link.transfer = some x ∧ x.form = .twoWireWrite := by
  simp [State.sdaLow, wire, running, State.acksData, Option.map_eq_some_iff]

theorem sdaLow_bit (wire : s.twoWire = true) (running : s.resetHeld = false) (i : Nat) (j : Fin 8) :
    s.sdaLow (.bit (8 * i + j.val)) = true ↔ ∃ b, s.outgoingByte i = some b ∧ b.getLsbD (7 - j.val) = false := by
  simp [State.sdaLow, wire, running, outgoingBit_eq, Option.map_eq_some_iff]

/-! ### The outgoing arbiter (R152) -/

/-- The classes stand in the order of their numbers. -/
theorem allClasses_get (cls : NoticeClass) : allClasses[cls.index.val]? = some cls := by cases cls <;> rfl

theorem index_of_allClasses {i : Nat} {cls : NoticeClass} (h : allClasses[i]? = some cls) : cls.index.val = i := by
  have nodup : allClasses.Nodup := by decide
  have inside : i < allClasses.length := (List.getElem?_eq_some_iff.mp h).1
  exact (List.getElem?_inj inside nodup).mp (h.trans (allClasses_get cls).symm) |>.symm

/-- The pending notice of the highest class is the first that is found (R152). -/
theorem find_class {pending : NoticeClass → Bool} {cls : NoticeClass} (here : pending cls = true)
    (highest : ∀ d : NoticeClass, d.index < cls.index → pending d = false) : allClasses.find? pending = some cls := by
  obtain ⟨inside, at_⟩ := List.getElem?_eq_some_iff.mp (allClasses_get cls)
  refine List.find?_eq_some_iff_getElem.mpr ⟨here, cls.index.val, inside, at_, fun j hj => ?_⟩
  have index : (allClasses[j]).index.val = j := index_of_allClasses (List.getElem?_eq_getElem _)
  rw [highest _ (Fin.lt_def.mpr (by omega))]
  rfl

/-- What a transfer sends when a reply waits and no notice is held (R152). -/
theorem chooseOutgoing_reply {r : Reply} {rest : List Reply} (replies : s.link.replies = r :: rest)
    (held : s.link.held = none ∨ s.link.held = some .reply) : s.chooseOutgoing =
    some { source := .reply, bytes := r.bytes, complete := false, changed := false, removed := false } := by
  obtain none | reply := held
  · simp [State.chooseOutgoing, none, State.arbitrate, replies, State.buildFrame]
  · simp [State.chooseOutgoing, reply, replies, State.buildFrame]

theorem buildFrame_notice {cls : NoticeClass} {n : PendingNotice} (h : s.link.notice cls = some n) : s.buildFrame (.notice cls) =
    some { source := .notice cls, bytes := s.noticeBytes cls n, complete := false, changed := false, removed := false } := by
  rw [State.buildFrame, h]
  rfl

/-- What a transfer sends when a notice is held, or is the highest pending while no reply waits (R152). -/
theorem chooseOutgoing_notice {cls : NoticeClass} {n : PendingNotice} (pending : s.link.notice cls = some n)
    (chosen : s.link.held = some (.notice cls) ∨ (s.link.held = none ∧ s.link.replies = [] ∧
      ∀ d : NoticeClass, d.index < cls.index → s.link.notice d = none)) : s.chooseOutgoing =
    some { source := .notice cls, bytes := s.noticeBytes cls n, complete := false, changed := false, removed := false } := by
  obtain held | ⟨held, replies, highest⟩ := chosen
  · rw [State.chooseOutgoing, held]
    exact buildFrame_notice pending
  · have first : allClasses.find? (fun c => (s.link.notice c).isSome) = some cls :=
      find_class (by rw [pending]; rfl) fun d hd => by rw [highest d hd]; rfl
    have source : s.arbitrate = some (.notice cls) := by simp [State.arbitrate, replies, first]
    rw [State.chooseOutgoing, held]
    simp only [source, Option.bind_some]
    exact buildFrame_notice pending

/-- With nothing held, queued or pending a transfer sends nothing (R152). -/
theorem chooseOutgoing_none (held : s.link.held = none) (replies : s.link.replies = []) (none : ∀ cls, s.link.notice cls = none) :
    s.chooseOutgoing = Option.none := by
  have nothing : allClasses.find? (fun c => (s.link.notice c).isSome) = Option.none :=
    List.find?_eq_none.mpr fun cls _ => by simp [none cls]
  have source : s.arbitrate = Option.none := by simp [State.arbitrate, replies, nothing]
  rw [State.chooseOutgoing, held]
  simp only [source, Option.bind_none]

/-! ### The events that begin a transfer (R144, R152) -/

theorem exec_transferBegin (start : TransferStart) (s : State) : exec (.transferBegin start) s = execTransferBegin start s := rfl

theorem exec_twoWireWriteAddress (a : BitVec 7) (s : State) :
    exec (.twoWireWriteAddress a) s = execTwoWireWriteAddress a s := rfl

/-- While the link does not listen, nothing begins (R156). -/
theorem exec_transferBegin_busy (h : s.linkIdle = false) (start : TransferStart) : exec (.transferBegin start) s = .next s := by
  simp [exec_transferBegin, execTransferBegin, h]

theorem exec_writeAddress_busy (h : s.linkIdle = false ∨ s.twoWire = false) (a : BitVec 7) :
    exec (.twoWireWriteAddress a) s = .next s := by
  rw [exec_twoWireWriteAddress, execTwoWireWriteAddress, if_neg]
  obtain busy | spi := h
  · simp [busy]
  · simp [spi]

/-- In SPI mode the part has no two-wire address (R143). -/
theorem exec_readAddress_spi (h : s.twoWire = false) (a : BitVec 7) : exec (.transferBegin (.readAddress a)) s = .next s := by
  simp [exec_transferBegin, execTransferBegin, h]

/-- In two-wire mode SS is ignored (R143). -/
theorem exec_ssFall_twoWire (h : s.twoWire = true) : exec (.transferBegin .ssFall) s = .next s := by
  simp [exec_transferBegin, execTransferBegin, h]

/-- Settles O6: the pins while nothing listens, the bytes and bits sent, the arbiter's choice, and the acknowledge of an address. -/
theorem transfersBegin : Obligations.TransfersBegin := by
  refine ⟨fun s start a held => ?held, fun s a spi => ⟨exec_readAddress_spi spi a, exec_writeAddress_busy (.inr spi) a⟩,
    fun s wire => exec_ssFall_twoWire wire, fun s i => ⟨fun h => outgoingByte_silent h i,
      fun x transfer form => outgoingByte_write transfer form i, fun x running transfer form => ?bytes⟩,
    fun s => ⟨fun wire n => if_pos wire, fun spi i j => ?miso, fun h slot => sdaLow_released h slot,
      fun wire running => ⟨sdaLow_addressAck wire running, sdaLow_dataAck wire running, sdaLow_bit wire running⟩, rfl⟩,
    fun s running idle => ?begin_⟩
  case held =>
    have busy : s.linkIdle = false := by simp [State.linkIdle, held]
    exact ⟨exec_transferBegin_busy busy start, exec_writeAddress_busy (.inl busy) a⟩
  case bytes =>
    rw [outgoingByte_sends running transfer form]
    exact ⟨fun none => by rw [none]; rfl, fun o some => by rw [some]; rfl⟩
  case miso => exact (if_neg (by simp [spi])).trans (outgoingBit_eq s i j)
  case begin_ =>
    have listens : s.linkIdle = true := by simp [State.linkIdle, running, idle]
    refine ⟨⟨s.chooseOutgoing, fun spi => ?_, fun wire => ?_, fun r rest => chooseOutgoing_reply, fun cls n => chooseOutgoing_notice,
      chooseOutgoing_none⟩, fun a wire other => ?_, fun wire room => ?_, fun a wire refused => ?_⟩
    · simp [exec_transferBegin, execTransferBegin, listens, spi, State.beginTransfer]
    · simp [exec_transferBegin, execTransferBegin, listens, wire, State.beginTransfer, State.acknowledge]
    · simp [exec_transferBegin, execTransferBegin, listens, wire, other, State.acknowledge]
    · simp [exec_twoWireWriteAddress, execTwoWireWriteAddress, listens, wire, (ready_iff s).mpr room, State.beginTransfer,
        State.acknowledge]
    · have closed : ¬(a = s.linkAddress ∧ s.ready = true) := by
        rintro ⟨own, ready⟩
        exact refused.elim (fun other => other own) fun full => Nat.not_lt.mpr full ((ready_iff s).mp ready)
      rw [exec_twoWireWriteAddress, execTwoWireWriteAddress, if_pos ⟨listens, wire⟩, if_neg closed]
      rfl

end

end Sys2Proof.Machine
end

section
/-! PROOFS. NOTICE SET and the two resets (R155, R156, R160, R161, R171). -/

namespace Sys2Proof.Machine

/-! ### The mask of some classes (R160) -/

/-- The classes stand in rising order of their numbers. -/
theorem allClasses_sorted : allClasses.Pairwise fun c d => c.index.val < d.index.val := by decide

theorem mem_allClasses (cls : NoticeClass) : cls ∈ allClasses := by cases cls <;> decide

/-- The mask of some classes has the bits of their numbers (R160). -/
theorem classMask_bit (p : NoticeClass → Bool) (cls : NoticeClass) :
    (classMask (allClasses.filter p)).getLsbD cls.index.val = p cls := by
  have sorted : ((allClasses.filter p).map fun c => c.index.val).Pairwise (· < ·) :=
    List.pairwise_map.mpr (allClasses_sorted.filter p)
  have powers : ((allClasses.filter p).map fun c => 2 ^ c.index.val) =
      ((allClasses.filter p).map fun c => c.index.val).map fun k => 2 ^ k := (List.map_map ..).symm
  have inside : cls.index.val < 8 := by omega
  rw [classMask, byteOf, BitVec.getLsbD_ofNat, powers, testBit_sum_two_pow sorted, decide_eq_true inside, Bool.true_and]
  refine Bool.eq_iff_iff.mpr (decide_eq_true_iff.trans ⟨fun h => ?_, fun h => ?_⟩)
  · obtain ⟨d, hd, index⟩ := List.mem_map.mp h
    rw [← NoticeClass.index_inj.mp (Fin.ext index)]
    exact (List.mem_filter.mp hd).2
  · exact List.mem_map.mpr ⟨cls, List.mem_filter.mpr ⟨mem_allClasses cls, h⟩, rfl⟩

/-! ### Notices that leave the notice set (R153, R159, R160) -/

/-- What a frame in transfer learns when notices of some classes leave the notice set (R153). -/
def Outgoing.without (gone : List NoticeClass) (o : Outgoing) : Outgoing :=
  if ∃ cls ∈ gone, o.source = .notice cls then { o with removed := true } else o

theorem without_cons (cls : NoticeClass) (gone : List NoticeClass) (o : Outgoing) :
    (if o.source = .notice cls then { o with removed := true } else o : Outgoing).without gone = o.without (cls :: gone) := by
  unfold Outgoing.without
  by_cases here : o.source = .notice cls
  · by_cases rest : ∃ d ∈ gone, o.source = .notice d
    · simp only [List.mem_cons, exists_eq_or_imp, here, if_true, true_or]
      exact ite_self _
    · simp only [List.mem_cons, exists_eq_or_imp, here, if_true, true_or]
      exact ite_self _
  · simp only [List.mem_cons, exists_eq_or_imp, here, if_false, false_or]

/-- The link after notices of some classes have left the notice set, one after another (R159, R160). -/
theorem dropNotices_eq (gone : List NoticeClass) (l : Link) : gone.foldl Link.dropNotice l = { l with
    notices := (gone.foldl Link.dropNotice l).notices
    held := if ∃ cls ∈ gone, l.held = some (.notice cls) then none else l.held
    transfer := l.transfer.map fun x => { x with outgoing := x.outgoing.map (Outgoing.without gone) } } := by
  induction gone generalizing l with
  | nil =>
    have none_ (o : Outgoing) : o.without [] = o := if_neg (by simp)
    have same : Outgoing.without [] = id := funext none_
    simp [same]
  | cons cls gone ih =>
    rw [List.foldl_cons, ih]
    have transfer : (l.dropNotice cls).transfer.map (fun x => { x with outgoing := x.outgoing.map (Outgoing.without gone) }) =
        l.transfer.map fun x => { x with outgoing := x.outgoing.map (Outgoing.without (cls :: gone)) } := by
      rw [Link.dropNotice, Option.map_map]
      refine congrArg (fun f => l.transfer.map f) (funext fun x => ?_)
      refine congrArg (fun y => ({ x with outgoing := y } : Transfer)) ?_
      refine (Option.map_map ..).trans (congrArg (fun f => x.outgoing.map f) (funext fun o => without_cons cls gone o))
    have held : (if ∃ d ∈ gone, (l.dropNotice cls).held = some (.notice d) then none else (l.dropNotice cls).held) =
        if ∃ d ∈ cls :: gone, l.held = some (.notice d) then none else l.held := by
      rw [Link.dropNotice]
      by_cases here : l.held = some (.notice cls)
      · simp [here]
      · simp [here]
    rw [transfer, held]
    rfl

theorem dropNotices_notice (gone : List NoticeClass) (l : Link) (cls : NoticeClass) :
    (gone.foldl Link.dropNotice l).notice cls = if cls ∈ gone then none else l.notice cls := by
  induction gone generalizing l with
  | nil => rfl
  | cons d gone ih =>
    rw [List.foldl_cons, ih, Link.notice_dropNotice]
    by_cases rest : cls ∈ gone
    · simp [rest]
    · simp [rest]

/-! ### The level of a general pin (R161, R167) -/

section
variable {s t : State} {k : PinId}

/-- The level on a pin depends on the groups, on the pin's role, drive type and board level, and for GP3 on ATTN1. -/
theorem pinLevel_congr (reset : t.resetHeld = s.resetHeld) (lane : t.lane = s.lane) (twoLine : t.link.twoLine = s.link.twoLine)
    (fault : t.link.notice .fault = s.link.notice .fault) (role : t.pins[k].role = s.pins[k].role)
    (drain : t.pins[k].openDrain = s.pins[k].openDrain) (board : t.pins[k].board = s.pins[k].board) : t.pinLevel k = s.pinLevel k := by
  have roleLevel : t.roleLevel = s.roleLevel := by
    funext r
    cases r <;> simp [State.roleLevel, group_congr lane]
  have output : t.pinOutput k = s.pinOutput k := by
    unfold State.pinOutput State.pinTaken State.attn1 State.faultPending
    rw [reset, twoLine, fault, role, roleLevel]
  simp only [State.pinLevel, State.pinDrive, output, drain, board]

end

/-! ### NOTICE SET (R160, R161) -/

theorem exec_noticeSet (s : State) : exec .noticeSet s = .next (s.takeRequest .noticeSet noticeSet) := rfl

theorem bitOf_ite (b : Bool) : bitOf (if b then 1 else 0) = some b := by cases b <;> rfl

/-- A WAITING cue has trigger PIN of the pin. -/
theorem cueWaitsOnPin_iff (s : State) (k : PinId) :
    s.cueWaitsOnPin k = true ↔ ∃ c ∈ s.cues, c.state = .waiting ∧ c.trigger = .pin k := by
  simp [State.cueWaitsOnPin]

/-- The link when NOTICE SET has written the mask and the mode (R160). -/
def Link.setNotices (l : Link) (mask : BitVec 7) (twoLine : Bool) : Link :=
  { (l.disabled mask).foldl Link.dropNotice l with enable := mask, twoLine := twoLine }

/-- The state when NOTICE SET has been carried out: GP3 is handed back with its present level (R160, R161). -/
def State.setNotices (s : State) (mask : BitVec 7) (twoLine : Bool) : State :=
  let t := { s with link := s.link.setNotices mask twoLine }
  if s.link.twoLine ∧ ¬ twoLine then t.resetReference 3 else t

section
variable {s : State} {m : Byte} {two : Bool}

/-- A mask with bit 7 clear and a mode are a well-formed payload (R160). -/
theorem noticeSet_wellFormed (high : m.getLsbD 7 = false) (x : Byte) :
    ¬([m, x].length ≠ 2 ∨ (byteAt [m, x] 0).getLsbD 7 = true) := by
  rintro (long | reserved)
  · exact long rfl
  · exact Bool.noConfusion (high.symm.trans reserved)

theorem noticeSet_inUse (high : m.getLsbD 7 = false) (h : two = true) (waits : s.cueWaitsOnPin 3 = true) :
    noticeSet [m, if two then 1 else 0] s = s.refuse .inUse := by
  have twoLine : bitOf (byteAt [m, if two then 1 else 0] 1) = some two := bitOf_ite two
  simp only [noticeSet, twoLine]
  rw [if_neg (noticeSet_wellFormed high _), if_pos ⟨h, waits⟩]

theorem noticeSet_accepted (high : m.getLsbD 7 = false) (free : two = false ∨ s.cueWaitsOnPin 3 = false) :
    noticeSet [m, if two then 1 else 0] s =
      (s.setNotices (m.setWidth 7) two).accept [classMask (s.link.disabled (m.setWidth 7))] := by
  have twoLine : bitOf (byteAt [m, if two then 1 else 0] 1) = some two := bitOf_ite two
  have allowed : ¬(two = true ∧ s.cueWaitsOnPin 3 = true) := by
    rintro ⟨h, waits⟩
    simp [h, waits] at free
  simp only [noticeSet, twoLine]
  rw [if_neg (noticeSet_wellFormed high _), if_neg allowed]
  rfl

/-- NOTICE SET touches the link and, handing GP3 back, its reference (R161). -/
theorem setNotices_eq (s : State) (mask : BitVec 7) (two : Bool) : s.setNotices mask two =
    { s with link := s.link.setNotices mask two, pins := (s.setNotices mask two).pins } := by
  simp only [State.setNotices]
  split <;> rfl

theorem disabled_mem (l : Link) (mask : BitVec 7) (cls : NoticeClass) :
    cls ∈ l.disabled mask ↔ l.enabled cls = true ∧ mask.getLsbD cls.index.val = false ∧ (l.notice cls).isSome = true := by
  simp [Link.disabled, mem_allClasses, and_assoc]

/-- The pending notices after NOTICE SET: a class that goes from enabled to disabled loses its notice (R160). -/
theorem setNotices_notice (l : Link) (mask : BitVec 7) (two : Bool) (cls : NoticeClass) : (l.setNotices mask two).notice cls =
    if l.enabled cls = true ∧ mask.getLsbD cls.index.val = false then none else l.notice cls := by
  have notice : (l.setNotices mask two).notice cls = ((l.disabled mask).foldl Link.dropNotice l).notice cls := rfl
  rw [notice, dropNotices_notice]
  by_cases lost : l.enabled cls = true ∧ mask.getLsbD cls.index.val = false
  · rw [if_pos lost]
    by_cases pending : (l.notice cls).isSome = true
    · exact if_pos ((disabled_mem l mask cls).mpr ⟨lost.1, lost.2, pending⟩)
    · rw [Option.not_isSome_iff_eq_none.mp pending, ite_self]
  · rw [if_neg lost, if_neg fun gone => lost ⟨((disabled_mem l mask cls).mp gone).1, ((disabled_mem l mask cls).mp gone).2.1⟩]

/-- The held frame after NOTICE SET (R153, R160). -/
theorem setNotices_held (l : Link) (mask : BitVec 7) (two : Bool) : (l.setNotices mask two).held =
    if ∃ cls ∈ l.disabled mask, l.held = some (.notice cls) then none else l.held := by
  rw [Link.setNotices, dropNotices_eq]

theorem setNotices_transfer (l : Link) (mask : BitVec 7) (two : Bool) : (l.setNotices mask two).transfer =
    l.transfer.map fun x => { x with outgoing := x.outgoing.map (Outgoing.without (l.disabled mask)) } := by
  rw [Link.setNotices, dropNotices_eq]

theorem setNotices_frame (l : Link) (mask : BitVec 7) (two : Bool) :
    (l.setNotices mask two).requests = l.requests ∧ (l.setNotices mask two).replies = l.replies ∧
    (l.setNotices mask two).overrun = l.overrun ∧ (l.setNotices mask two).addressAck = l.addressAck :=
  dropNotices_frame (l.disabled mask) l

theorem resetReference_pin (s : State) (k j : PinId) : (s.resetReference k).pins[j] =
    if j = k then { s.pins[k] with reference := some (s.pinLevel k) } else s.pins[j] := setPin_pin s k j _

/-- NOTICE SET looks at no queue, so a frame that has been taken makes no difference to it (R150). -/
theorem taken_setNotices (s : State) (mask : BitVec 7) (two : Bool) : s.taken.link.setNotices mask two =
    { s.link.setNotices mask two with requests := (s.link.setNotices mask two).requests.tail } := by
  have drop (gone : List NoticeClass) (l : Link) : gone.foldl Link.dropNotice { l with requests := l.requests.tail } =
      { gone.foldl Link.dropNotice l with requests := (gone.foldl Link.dropNotice l).requests.tail } := by
    induction gone generalizing l with
    | nil => rfl
    | cons cls gone ih =>
      rw [List.foldl_cons, Link.dropNotice_answered, ih]
      rfl
  exact congrArg (fun l : Link => { l with enable := mask, twoLine := two }) (drop (s.link.disabled mask) s.link)

/-- The pins after NOTICE SET: only GP3 handed back takes a new reference (R161). -/
theorem setNotices_pin (s : State) (mask : BitVec 7) (two : Bool) (k : PinId) : (s.setNotices mask two).pins[k] =
    if s.link.twoLine = true ∧ two = false ∧ k = 3 then
      { s.pins[k] with reference := some (State.pinLevel { s with link := s.link.setNotices mask two } k) }
    else s.pins[k] := by
  by_cases back : s.link.twoLine = true ∧ ¬ two = true
  · have handed : s.setNotices mask two = State.resetReference { s with link := s.link.setNotices mask two } 3 := if_pos back
    rw [handed, resetReference_pin]
    by_cases hk : k = 3
    · subst hk
      rw [if_pos rfl, if_pos ⟨back.1, Bool.eq_false_iff.mpr back.2, rfl⟩]
    · rw [if_neg hk, if_neg fun h => hk h.2.2]
  · have kept : s.setNotices mask two = { s with link := s.link.setNotices mask two } := if_neg back
    rw [kept, if_neg fun h => back ⟨h.1, by simp [h.2.1]⟩]

/-- The executor's effect on a NOTICE SET that is accepted (R160). -/
theorem exec_noticeSet_accepted {f : ReceivedFrame} (ha : s.Asks f .noticeSet [m, if two then 1 else 0]) (high : m.getLsbD 7 = false)
    (free : two = false ∨ s.cueWaitsOnPin 3 = false) :
    exec .noticeSet s = .next { s.taken.setNotices (m.setWidth 7) two with
      link := (s.link.setNotices (m.setWidth 7) two).answered f .ok [classMask (s.link.disabled (m.setWidth 7))] } := by
  have link : (s.taken.setNotices (m.setWidth 7) two).link = { s.link.setNotices (m.setWidth 7) two with
      requests := (s.link.setNotices (m.setWidth 7) two).requests.tail } := by
    rw [setNotices_eq]
    exact taken_setNotices s (m.setWidth 7) two
  rw [exec_noticeSet, takeRequest_accepted ha (noticeSet_accepted (s := s.taken) high free) link]
  rfl

/-- The bits that the mask of seven classes keeps of the request's byte. -/
theorem mask_bit (m : Byte) (cls : NoticeClass) : (m.setWidth 7).getLsbD cls.index.val = m.getLsbD cls.index.val := by
  rw [BitVec.getLsbD_setWidth, decide_eq_true cls.index.isLt, Bool.true_and]

end

/-- Settles O11: the request is refused while a cue waits on GP3, and otherwise writes the mask and the mode as `setNotices` says. -/
theorem noticeSetWritesMaskAndMode : Obligations.NoticeSetWritesMaskAndMode := by
  intro s f m two ha high
  refine ⟨fun ⟨taken, waits⟩ => ?_, fun free => ?_⟩
  · have pin : s.taken.cueWaitsOnPin 3 = true := (cueWaitsOnPin_iff s 3).mpr waits
    rw [exec_noticeSet, takeRequest_refused ha (noticeSet_inUse high taken pin)]
  · have unused : two = false ∨ s.cueWaitsOnPin 3 = false := free.imp_right fun h =>
      Bool.not_eq_true _ ▸ fun waits => by
        obtain ⟨c, hc, waiting, trigger⟩ := (cueWaitsOnPin_iff s 3).mp waits
        exact h c hc waiting trigger
    obtain ⟨requests, replies, overrun, addressAck⟩ := setNotices_frame s.link (m.setWidth 7) two
    have bit (cls : NoticeClass) : (classMask (s.link.disabled (m.setWidth 7))).getLsbD cls.index.val =
        (s.link.enabled cls && !m.getLsbD cls.index.val && (s.link.notice cls).isSome) := by
      rw [Link.disabled, classMask_bit, mask_bit]
    have gone_iff (cls : NoticeClass) : cls ∈ s.link.disabled (m.setWidth 7) ↔
        (classMask (s.link.disabled (m.setWidth 7))).getLsbD cls.index.val = true := by
      rw [disabled_mem, bit, mask_bit]
      simp [and_assoc]
    have pins := setNotices_pin s.taken (m.setWidth 7) two
    refine ⟨_, classMask (s.link.disabled (m.setWidth 7)), exec_noticeSet_accepted ha high unused, ?_, rfl, rfl, ?_, rfl, ?_,
      fun cls => ?_, bit, fun cls held gone => ?_, fun kept => ?_, addressAck, ?_, fun k hk => ?_, fun back one => ?_⟩
    · rw [setNotices_eq s.taken]
      rfl
    · exact congrArg List.tail requests
    · show _ ++ _ = _
      rw [replies, overrun]
      cases s.link.overrun <;> rfl
    · exact (setNotices_notice s.link (m.setWidth 7) two cls).trans (by rw [mask_bit])
    · exact (setNotices_held s.link (m.setWidth 7) two).trans (if_pos ⟨cls, (gone_iff cls).mpr gone, held⟩)
    · refine (setNotices_held s.link (m.setWidth 7) two).trans (if_neg fun ⟨cls, gone, held⟩ => ?_)
      rw [gone_iff, kept cls held] at gone
      exact Bool.noConfusion gone
    · refine (setNotices_transfer s.link (m.setWidth 7) two).trans ?_
      refine congrArg (fun f => s.link.transfer.map f) (funext fun x => ?_)
      refine congrArg (fun f => ({ x with outgoing := x.outgoing.map f } : Transfer)) (funext fun o => ?_)
      obtain ⟨source, bytes, complete, changed, removed⟩ := o
      cases source with
      | reply => exact if_neg fun ⟨cls, _, source⟩ => Source.noConfusion source
      | notice cls =>
        refine ite_congr (propext ((Iff.trans ⟨?_, fun gone => ⟨cls, gone, rfl⟩⟩ (gone_iff cls)))) (fun _ => rfl) fun _ => rfl
        rintro ⟨d, gone, source⟩
        cases source
        exact gone
    · refine (pins k).trans (if_neg fun ⟨two_, one, hk'⟩ => ?_)
      exact hk.elim (fun other => other hk') fun stays => stays.elim
        (fun oneLine => Bool.noConfusion (oneLine.symm.trans two_)) fun taken => Bool.noConfusion (one.symm.trans taken)
    · refine (pins 3).trans ((if_pos ⟨back, one, rfl⟩).trans ?_)
      refine congrArg (fun level => ({ s.pins[(3 : PinId)] with reference := some level } : GeneralPin)) (Eq.symm ?_)
      have pin := (pins 3).trans (if_pos ⟨back, one, rfl⟩)
      have role := congrArg GeneralPin.role pin
      have drain := congrArg GeneralPin.openDrain pin
      have board := congrArg GeneralPin.board pin
      refine pinLevel_congr ?_ ?_ rfl ?_ role drain board
      · rw [setNotices_eq]
      · rw [setNotices_eq]
      · have notice := congrArg (fun l : Link => l.notice .fault) (taken_setNotices s (m.setWidth 7) two)
        exact notice.symm

/-! ### The hardware reset (R141, R156, R171) -/

theorem resetPins_pin (s : State) (k : PinId) : s.resetPins[k] = GeneralPin.reset s.pins[k].board := by
  simp [State.resetPins]

/-- A hardware reset leaves every word but the one that was being written (R141). -/
theorem abandon_read (m : MemoryPort) (n : Nat) {a : Nat} (h : ∀ v f, m.access ≠ some (.write a v f)) :
    Memory.read (m.abandon n) a = Memory.read m.dram a := by
  unfold MemoryPort.abandon
  split
  case h_1 b v f under =>
    refine Memory.read_write_ne _ _ fun same => ?_
    subst same
    exact h v f under
  case h_2 => rfl

theorem abandonCount_write {m : MemoryPort} {a : Nat} {v : DramWord} {f : Bool} (h : m.access = some (.write a v f)) (n : Nat) :
    m.abandonCount n = n + 1 := by
  rw [MemoryPort.abandonCount, h]

theorem abandonCount_other {m : MemoryPort} (h : ∀ a v f, m.access ≠ some (.write a v f)) (n : Nat) : m.abandonCount n = n := by
  unfold MemoryPort.abandonCount
  split
  case h_1 a v f under => exact absurd under (h a v f)
  case h_2 => rfl

/-- Settles O12: the blocks' reset values are the fields of the command's result, and a release samples the straps. -/
theorem hardwareResetAndRelease : Obligations.HardwareResetAndRelease := by
  refine ⟨fun s => ⟨_, exec_hardwareReset s, rfl, rfl, rfl, rfl, rfl, rfl, rfl, rfl, rfl, resetPins_pin s, rfl,
    fun a => abandon_read s.mem s.free, fun a v f under => abandonCount_write under s.free,
    fun none => abandonCount_other none s.free⟩, fun s x => ⟨fun held => ?_, fun running => ?_⟩⟩
  · exact congrArg Host.Outcome.next (if_pos held)
  · exact congrArg Host.Outcome.next (if_neg (by simp [running]))

/-! ### The soft reset (R127, R141, R155) -/

/-- A PART RESET that is accepted is answered OK and then carried out (R155). -/
theorem exec_partReset_accepted {s : State} {f : ReceivedFrame} (h : s.Asks f .partReset []) :
    exec .partReset s = .next (s.answered f .ok []).softReset := by
  have accepted : partResetRequest [] s.taken = s.taken.accept [] := if_neg (not_not_intro rfl)
  rw [exec_partReset, if_pos (resetAccepted_iff.mpr ⟨f, h⟩), takeRequest_reported h accepted]

/-- Settles O13: the blocks' soft-reset values are the fields of the state after the reply. -/
theorem softResetKeepsRepliesAndFaults : Obligations.SoftResetKeepsRepliesAndFaults := by
  intro s f h
  refine ⟨_, exec_partReset_accepted h, rfl, rfl, rfl, rfl, rfl, rfl, rfl, rfl, rfl, resetPins_pin _, rfl, fun a d q under => ?_,
    fun a v q under => ?_, fun under => ?_, rfl, rfl, rfl, rfl, fun cls => getElem_replicate _ cls.index, ?_, rfl, rfl, rfl⟩
  · exact congrArg (Option.map Access.orphan) under
  · exact (congrArg (Option.map Access.orphan) under).trans under.symm
  · obtain refresh | none := under
    · exact (congrArg (Option.map Access.orphan) refresh).trans refresh.symm
    · exact (congrArg (Option.map Access.orphan) none).trans none.symm
  · show s.link.replies ++ _ = _
    cases s.link.overrun <;> rfl

end Sys2Proof.Machine
end

section
/-! PROOFS. PIN SET and the edges of the general pins (R97, R161, R167 to R169, R171). -/

namespace Sys2Proof.Machine

/-! ### The fields of PIN SET (R173) -/

@[simp] theorem index4Of_ofNat (i : Fin 4) : index4Of (BitVec.ofNat 8 i.val) = some i := by
  have hi : (BitVec.ofNat 8 i.val).toNat = i.val := by
    rw [BitVec.toNat_ofNat]
    omega
  simp [index4Of, hi]

theorem pinRoleOf_code (role : PinRole) : pinRoleOf role.code = some role := by cases role <;> rfl

theorem isTrigger_iff (role : PinRole) : role.isTrigger = true ↔ role = .triggerRise ∨ role = .triggerFall := by
  cases role <;> simp [PinRole.isTrigger]

/-- GP3 is taken in TWO-LINE mode (R161). -/
theorem pinTaken_iff (s : State) (k : PinId) : s.pinTaken k = true ↔ s.link.twoLine = true ∧ k = 3 := by
  rw [State.pinTaken, Bool.and_eq_true, decide_eq_true_iff]

section
variable {s t : State} {k : PinId}

/-! ### Storing a pin (R168, R169) -/

theorem setPin_setPin (s : State) (k : PinId) (p q : GeneralPin) : (s.setPin k p).setPin k q = s.setPin k q :=
  congrArg (fun v => ({ s with pins := v } : State)) (Vector.set_set ..)

theorem setPin_pin_self (s : State) (k : PinId) (p : GeneralPin) : (s.setPin k p).pins[k] = p :=
  (setPin_pin s k k p).trans (if_pos rfl)

/-- A new reference is the level the pin then has (R168). -/
theorem resetReference_setPin (s : State) (k : PinId) (p : GeneralPin) : (s.setPin k p).resetReference k =
    s.setPin k { p with reference := some ((s.setPin k p).pinLevel k) } := by
  rw [State.resetReference, setPin_setPin, setPin_pin_self]

/-- The reference of a pin has no part in its level. -/
theorem pinLevel_setPin_reference (s : State) (k : PinId) (p : GeneralPin) (r : Option Bool) :
    (s.setPin k { p with reference := r }).pinLevel k = (s.setPin k p).pinLevel k := by
  have pin := setPin_pin_self s k p
  have touched := setPin_pin_self s k { p with reference := r }
  exact pinLevel_congr rfl rfl rfl rfl (by rw [pin, touched]) (by rw [pin, touched]) (by rw [pin, touched])

/-- A pin whose settings are stored takes its present level as its reference, unless it is GP3 while taken (R161, R169). -/
def State.storePin (s : State) (k : PinId) (p : GeneralPin) : State :=
  if (s.setPin k p).pinTaken k then s.setPin k p else (s.setPin k p).resetReference k

theorem storePin_eq (s : State) (k : PinId) (p : GeneralPin) : s.storePin k p = s.setPin k { p with
    reference := if s.link.twoLine = true ∧ k = 3 then p.reference else some ((s.setPin k p).pinLevel k) } := by
  by_cases taken : s.link.twoLine = true ∧ k = 3
  · rw [if_pos taken]
    exact if_pos ((pinTaken_iff (s.setPin k p) k).mpr taken)
  · rw [if_neg taken, ← resetReference_setPin]
    exact if_neg (mt (pinTaken_iff (s.setPin k p) k).mp taken)

/-! ### PIN SET (R169) -/

theorem exec_pinSet (s : State) : exec .pinSet s = .next (s.takeRequest .pinSet pinSet) := rfl

variable {role : PinRole} {drain report : Bool}

/-- The payload of a PIN SET whose fields are codes. -/
abbrev pinSetPayload (k : PinId) (role : PinRole) (drain report : Bool) : List Byte :=
  [BitVec.ofNat 8 k.val, role.code, if drain then 1 else 0, if report then 1 else 0]

theorem pinSet_fields (s : State) (k : PinId) (role : PinRole) (drain report : Bool) : pinSet (pinSetPayload k role drain report) s =
    if report = true ∧ role ≠ .input then s.refuse .badValue
    else if s.pins[k].role.isTrigger = true ∧ ¬ role.isTrigger = true ∧ s.cueWaitsOnPin k = true then s.refuse .inUse
    else (s.storePin k { s.pins[k] with role := role, openDrain := drain, report := report }).accept [] := by
  have f0 : index4Of (byteAt (pinSetPayload k role drain report) 0) = some k := index4Of_ofNat k
  have f1 : pinRoleOf (byteAt (pinSetPayload k role drain report) 1) = some role := pinRoleOf_code role
  have f2 : bitOf (byteAt (pinSetPayload k role drain report) 2) = some drain := bitOf_ite drain
  have f3 : bitOf (byteAt (pinSetPayload k role drain report) 3) = some report := bitOf_ite report
  have whole : (pinSetPayload k role drain report).length ≠ 4 ∨ (report = true ∧ role ≠ .input) ↔ (report = true ∧ role ≠ .input) :=
    or_iff_right (not_not_intro rfl)
  simp only [pinSet, f0, f1, f2, f3]
  exact ite_congr (propext (whole)) (fun _ => rfl) fun _ => rfl

/-- A pin that loses its trigger role while a cue waits on it (R169). -/
abbrev State.KeepsTrigger (s : State) (k : PinId) (role : PinRole) : Prop :=
  (s.pins[k].role = .triggerRise ∨ s.pins[k].role = .triggerFall) ∧ role ≠ .triggerRise ∧ role ≠ .triggerFall ∧
    ∃ c ∈ s.cues, c.state = .waiting ∧ c.trigger = .pin k

theorem keepsTrigger_iff (s : State) (k : PinId) (role : PinRole) : s.KeepsTrigger k role ↔
    s.pins[k].role.isTrigger = true ∧ ¬ role.isTrigger = true ∧ s.cueWaitsOnPin k = true := by
  rw [isTrigger_iff, isTrigger_iff, cueWaitsOnPin_iff, not_or, and_assoc]

/-- Settles O16: the three outcomes of `pinSet`, the stored pin with its reference as `storePin_eq` gives it. -/
theorem pinSetStoresTheSettings : Obligations.PinSetStoresTheSettings := by
  intro s f k role drain report ha
  have fields := pinSet_fields s.taken k role drain report
  refine ⟨fun reports other => ?_, fun fits => ?_⟩
  · rw [exec_pinSet, takeRequest_refused ha (fields.trans (if_pos ⟨reports, other⟩))]
  · have wellFormed : ¬(report = true ∧ role ≠ .input) := fun h => h.2 (fits h.1)
    rw [if_neg wellFormed] at fields
    refine ⟨fun loses => ?_, fun free => ?_⟩
    · have inUse := (keepsTrigger_iff s k role).mp loses
      rw [exec_pinSet, takeRequest_refused ha (fields.trans (if_pos inUse))]
    · have unused := mt (keepsTrigger_iff s k role).mpr free
      have accepted := fields.trans (if_neg unused)
      rw [storePin_eq] at accepted
      obtain ⟨q, hq⟩ : ∃ q : GeneralPin, q = { s.pins[k] with
          role := role, openDrain := drain, report := report
          reference := if s.link.twoLine = true ∧ k = 3 then s.pins[k].reference else some ((s.taken.setPin k { s.pins[k] with
            role := role, openDrain := drain, report := report }).pinLevel k) } := ⟨_, rfl⟩
      have stored : pinSet (pinSetPayload k role drain report) s.taken = (s.taken.setPin k q).accept [] := by
        rw [accepted, hq]
        rfl
      have pin : (s.taken.setPin k q).pins[k] = q := setPin_pin_self s.taken k q
      have level : State.pinLevel { s.taken.setPin k q with link := s.link.answered f .ok [] } k =
          (s.taken.setPin k { s.pins[k] with role := role, openDrain := drain, report := report }).pinLevel k := by
        have same : State.pinLevel { s.taken.setPin k q with link := s.link.answered f .ok [] } k = (s.taken.setPin k q).pinLevel k :=
          pinLevel_congr rfl rfl rfl rfl rfl rfl rfl
        rw [same, hq]
        exact pinLevel_setPin_reference s.taken k { s.pins[k] with role := role, openDrain := drain, report := report } _
      rw [exec_pinSet, takeRequest_accepted ha stored (taken_link s)]
      refine ⟨_, rfl, ?_, ?_⟩
      · exact congrArg (fun p => ({ s with pins := s.pins.set k p, link := s.link.answered f .ok [] } : State)) pin.symm
      · refine pin.trans (hq.trans ?_)
        rw [level]

/-! ### An edge on a pin (R97, R168, R171) -/

theorem exec_pinEdge (k : PinId) (change : PinChange) (s : State) : exec (.pinEdge k change) s = execPinEdge k change s := rfl

/-- While RESET is held and between two edges of REFCLK a pin is not sensed (R171; log 26). -/
theorem exec_pinEdge_unsensed {high sensed : Bool} (h : s.resetHeld = true ∨ sensed = false) (k : PinId) :
    exec (.pinEdge k ⟨high, sensed⟩) s = .next (s.setPin k { s.pins[k] with board := high }) := by
  refine congrArg Host.Outcome.next (if_neg fun ⟨now, running⟩ => ?_)
  exact h.elim running fun later => Bool.noConfusion (later.symm.trans now)

/-- A sensed pin takes the level on it as its reference, and a level that differs from the one before is an edge (R168). -/
theorem exec_pinEdge_sensed (running : s.resetHeld = false) (k : PinId) (high : Bool) :
    exec (.pinEdge k ⟨high, true⟩) s =
      .next (if s.pins[k].reference = some (!(s.setPin k { s.pins[k] with board := high }).pinLevel k) then
          (s.setPin k { s.pins[k] with board := high, reference := some ((s.setPin k { s.pins[k] with board := high }).pinLevel k) }).judgeEdge k
            ((s.setPin k { s.pins[k] with board := high }).pinLevel k)
        else s.setPin k { s.pins[k] with
          board := high, reference := some ((s.setPin k { s.pins[k] with board := high }).pinLevel k) }) := by
  have sensed : exec (.pinEdge k ⟨high, true⟩) s = .next ((s.setPin k { s.pins[k] with board := high }).sense k) :=
    congrArg Host.Outcome.next (if_pos ⟨rfl, by simp [running]⟩)
  rw [sensed]
  simp only [State.sense, resetReference_setPin, setPin_pin_self]

/-- An edge is judged on a pin with an input role that is not GP3 while taken (R168). -/
theorem judgeEdge_ignored (h : (s.link.twoLine = true ∧ k = 3) ∨ s.pins[k].role ∉ [PinRole.input, .triggerRise, .triggerFall])
    (high : Bool) : s.judgeEdge k high = s := by
  unfold State.judgeEdge
  by_cases taken : s.pinTaken k = true
  · exact if_pos taken
  · rw [if_neg taken]
    obtain both | other := h
    · exact absurd ((pinTaken_iff s k).mpr both) taken
    · split
      case h_1 rise => exact absurd (by rw [rise]; decide) other
      case h_2 fall => exact absurd (by rw [fall]; decide) other
      case h_3 input => exact absurd (by rw [input]; decide) other
      case h_4 => rfl

/-- A role that leaves the pin to the board (R167). -/
abbrev PinRole.Senses (role : PinRole) : Prop := role = .input ∨ role = .triggerRise ∨ role = .triggerFall

theorem roleLevel_none (h : role.Senses) (s : State) : s.roleLevel role = none := by
  obtain rfl | rfl | rfl := h <;> rfl

/-- A pin whose role leaves it to the board has the board's level (R167). -/
theorem pinLevel_board (free : s.link.twoLine = false ∨ k ≠ 3) (h : s.pins[k].role.Senses) : s.pinLevel k = s.pins[k].board := by
  have untaken : ¬ s.pinTaken k = true := fun taken => by
    obtain ⟨twoLine, gp3⟩ := (pinTaken_iff s k).mp taken
    exact free.elim (fun one => Bool.noConfusion (one.symm.trans twoLine)) fun other => other gp3
  have output : s.pinOutput k = none := by
    rw [State.pinOutput, if_neg untaken, roleLevel_none h]
    exact ite_self _
  simp only [State.pinLevel, State.pinDrive, output]

/-- What an edge does, by the role of the pin (R97, R168). -/
theorem judgeEdge_senses (free : s.link.twoLine = false ∨ k ≠ 3) (hr : s.pins[k].role = role) (h : role.Senses) (high : Bool) :
    s.judgeEdge k high =
      if (role = .triggerRise ∧ high = true) ∨ (role = .triggerFall ∧ high = false) then s.armCues k
      else if role = .input ∧ s.pins[k].report = true then s.occur .pin (.pin k high)
      else s := by
  have untaken : ¬ s.pinTaken k = true := fun taken => by
    obtain ⟨twoLine, gp3⟩ := (pinTaken_iff s k).mp taken
    exact free.elim (fun one => Bool.noConfusion (one.symm.trans twoLine)) fun other => other gp3
  rw [State.judgeEdge, if_neg untaken, hr]
  obtain rfl | rfl | rfl := h
  · simp
  · cases high <;> simp
  · cases high <;> simp

/-- Settles O18: an edge unsensed, an edge on a pin the part drives, and one on a pin it leaves to the board. -/
theorem pinEdgeArmsAndReports : Obligations.PinEdgeArmsAndReports := by
  refine ⟨fun s k high sensed h => exec_pinEdge_unsensed h k, fun s k high running driven => ?driven,
    fun s k high running free role hr h => ?board⟩
  case driven =>
    obtain ⟨level, hlevel⟩ : ∃ level, level = (s.setPin k { s.pins[k] with board := high }).pinLevel k := ⟨_, rfl⟩
    obtain ⟨t, ht⟩ : ∃ t, t = s.setPin k { s.pins[k] with board := high, reference := some level } := ⟨_, rfl⟩
    have pin : t.pins[k] = { s.pins[k] with board := high, reference := some level } := ht ▸ setPin_pin_self s k _
    have ignored : t.judgeEdge k level = t := by
      refine judgeEdge_ignored ?_ level
      rw [pin, ht]
      exact driven
    have same : t.pinLevel k = level := by
      rw [ht, hlevel]
      exact pinLevel_setPin_reference s k { s.pins[k] with board := high } _
    refine ⟨t, ?_, ?_⟩
    · rw [exec_pinEdge_sensed running, ← hlevel, ← ht, ignored, ite_self]
    · rw [same]
      exact ht
  case board =>
    intro u
    have pin : u.pins[k] = { s.pins[k] with board := high, reference := some high } := setPin_pin_self s k _
    have boardPin := setPin_pin_self s k { s.pins[k] with board := high }
    have level : (s.setPin k { s.pins[k] with board := high }).pinLevel k = high := by
      rw [pinLevel_board (s := s.setPin k _) free (by rw [boardPin, hr]; exact h), boardPin]
    rw [exec_pinEdge_sensed running, level]
    refine ⟨fun same => congrArg Host.Outcome.next (if_neg same), fun edge => congrArg Host.Outcome.next ((if_pos edge).trans ?_)⟩
    refine (judgeEdge_senses (s := u) free (by rw [pin]; exact hr) h high).trans ?_
    rw [pin]
    rfl

end

end Sys2Proof.Machine
end

section
/-! PROOFS. The lines that follow the state: the attention lines and READY, the general pins and the lane data pins (R1, R3, R10, R35 to R37, R149, R161, R167). -/

namespace Sys2Proof.Machine

section
variable {s : State}

/-! ### The attention lines (R161) -/

theorem otherPending_iff (s : State) : s.otherPending = true ↔ ∃ cls : NoticeClass, cls ≠ .fault ∧ s.link.notice cls ≠ none := by
  simp [State.otherPending, mem_allClasses, Option.isSome_iff_ne_none]

theorem faultPending_iff (s : State) : s.faultPending = true ↔ s.link.notice .fault ≠ none := Option.isSome_iff_ne_none

theorem replyPending_iff (s : State) : s.replyPending = true ↔ s.link.replies ≠ [] := by simp [State.replyPending]

/-- ATTN0 shows a reply, a notice of another class, and a FAULT notice while it has no line of its own (R161). -/
theorem attn0_iff (s : State) : s.attn0 = true ↔ s.link.replies ≠ [] ∨
    ∃ cls, s.link.notice cls ≠ none ∧ (cls = .fault → s.link.twoLine = false) := by
  rw [State.attn0, Bool.or_eq_true, Bool.or_eq_true, Bool.and_eq_true, Bool.not_eq_true', replyPending_iff, otherPending_iff,
    faultPending_iff, or_assoc]
  refine or_congr_right ⟨?_, fun ⟨cls, pending, shown⟩ => ?_⟩
  · rintro (⟨cls, other, pending⟩ | ⟨one, pending⟩)
    · exact ⟨cls, pending, fun fault => absurd fault other⟩
    · exact ⟨.fault, pending, fun _ => one⟩
  · by_cases fault : cls = .fault
    · exact .inr ⟨shown fault, fault ▸ pending⟩
    · exact .inl ⟨cls, fault, pending⟩

/-! ### The general pins (R161, R167) -/

variable {k : PinId}

/-- A pin whose role drives a level shows it by its drive type (R167). -/
theorem pinLevel_driven (running : s.resetHeld = false) (free : s.link.twoLine = false ∨ k ≠ 3) {level : Bool}
    (h : s.roleLevel s.pins[k].role = some level) :
    s.pinLevel k = (level && (!s.pins[k].openDrain || s.pins[k].board)) := by
  have untaken : ¬ s.pinTaken k = true := fun taken => by
    obtain ⟨twoLine, gp3⟩ := (pinTaken_iff s k).mp taken
    exact free.elim (fun one => Bool.noConfusion (one.symm.trans twoLine)) fun other => other gp3
  have output : s.pinOutput k = some level := by
    rw [State.pinOutput, if_neg (by simp [running]), if_neg untaken, h]
  simp only [State.pinLevel, State.pinDrive, output]
  cases level with
  | false => rfl
  | true =>
    cases s.pins[k].openDrain with
    | false => rfl
    | true => rfl

/-! ### The lane data pins (R1, R10, R35, R37) -/

variable {q : QuadId} {p : LanePos} {plan format : Plan} {l : LanePlan}

/-- A STARTED quad's lanes are framed by its own group, unless it is joined (R5). -/
theorem groupOfQuad_eq (h : (s.quad q).startedPlan = some plan) :
    s.groupOfQuad q = if q = .B ∧ plan.joined = false then .B else .A := by
  cases q with
  | A => rfl
  | B =>
    have joined : s.bJoined = plan.joined := by rw [bJoined_eq, Quad.joins, h, Option.any_some]
    rw [State.groupOfQuad, joined]
    cases plan.joined <;> rfl

theorem laneDrive_unstarted (h : (s.quad q).startedPlan = none) (p : LanePos) : s.laneDrive q p = .highImpedance := by
  rw [State.laneDrive, h]

theorem laneDrive_absent (h : (s.quad q).startedPlan = some plan) (absent : plan.lanes[p] = none) :
    s.laneDrive q p = .highImpedance := by
  simp only [State.laneDrive, h, absent]

theorem laneDrive_input (h : (s.quad q).startedPlan = some plan) (lane : plan.lanes[p] = some l) (dir : l.direction = .input) :
    s.laneDrive q p = .captured := by
  simp only [State.laneDrive, h, lane, dir]

/-- The drive of an OUT lane (R10, R35, R36). -/
theorem laneDrive_output (h : (s.quad q).startedPlan = some plan) (lane : plan.lanes[p] = some l) (dir : l.direction = .output) :
    s.laneDrive q p = if q = .B ∧ plan.joined = true ∧ s.lane.joinedDriven = false then .highImpedance
      else if (s.group (if q = .B ∧ plan.joined = false then .B else .A)).state = .locked then .words
      else .drivenLow := by
  have waits : (q = .B ∧ s.bJoined = true ∧ ¬ s.lane.joinedDriven = true) ↔
      (q = .B ∧ plan.joined = true ∧ s.lane.joinedDriven = false) := by
    refine and_congr_right fun hq => and_congr ?_ (Bool.not_eq_true _).to_iff
    subst hq
    rw [bJoined_eq, Quad.joins, h, Option.any_some]
  simp only [State.laneDrive, h, lane, dir, groupOfQuad_eq h]
  exact ite_congr (propext (waits)) (fun _ => rfl) fun _ => rfl

/-! ### The words of an OUT lane (R3, R36) -/

variable {side : Side} {position : Nat}

theorem shiftedLevel_delayed (delayed : format.firstBitDelay = true) (inside : position ≠ 0) :
    s.shiftedLevel q p l format side position = wordBit q p l 1 side s.word.settled position := by
  rw [State.shiftedLevel, if_pos delayed, if_neg inside]

/-- With a first-bit delay, position 0 still has the last bit of the half-frame before (R3). -/
theorem shiftedLevel_edge (delayed : format.firstBitDelay = true) : s.shiftedLevel q p l format side 0 =
    wordBit q p l 1 side.other (s.endingSamples (s.groupOfQuad q) side) format.halfLength := by
  rw [State.shiftedLevel, if_pos delayed, if_pos rfl]

theorem shiftedLevel_straight (straight : format.firstBitDelay = false) (inside : position ≠ format.halfLength) :
    s.shiftedLevel q p l format side position = wordBit q p l 0 side s.word.settled position := by
  rw [State.shiftedLevel, if_neg (by simp [straight]), if_neg inside]

/-- Without one, a half-frame that has counted its length has the next one's first bit (R4). -/
theorem shiftedLevel_next (straight : format.firstBitDelay = false) : s.shiftedLevel q p l format side format.halfLength =
    wordBit q p l 0 side.other s.word.settled 0 := by
  rw [State.shiftedLevel, if_neg (by simp [straight]), if_pos rfl]

theorem wordSlot_eq (p : LanePos) (side : Side) (i : Nat) : wordSlot p side i = 2 * p.val + 2 * i + (if side = .left then 0 else 1) := by
  cases side <;> rfl

theorem wordSlot_other (p : LanePos) (side : Side) (i : Nat) :
    wordSlot p side.other i = 2 * p.val + 2 * i + (if side = .left then 1 else 0) := by
  cases side <;> rfl

/-- The samples of the half-frame that ends, channel by channel (R3, R31). -/
theorem endingSamples_get (s : State) (g : GroupId) (side : Side) (c : Channel) : (s.endingSamples g side)[c] =
    if side = .left ∧ (s.group g).startDue = false then s.word.previous[c] else s.word.settled[c] := by
  cases side with
  | left =>
    rw [State.endingSamples]
    cases (s.group g).startDue <;> rfl
  | right => rfl

/-- Every bit of a covered word, from the first-bit delay on (R3, R36). -/
theorem shiftedLevel_word (delay : Nat) (hd : delay = if format.firstBitDelay then 1 else 0)
    (fits : l.granted * l.wordLength.bits ≤ format.halfLength) {i j : Nat} {c : Channel} (hi : i < l.granted)
    (hj : j < l.wordLength.bits) (hq : channelQuad c = q) (hc : channelSlot c = 2 * p.val + 2 * i + (if side = .left then 0 else 1)) :
    s.shiftedLevel q p l format side (delay + i * l.wordLength.bits + j) =
      (wordOfSample l.wordLength s.word.settled[c]).getLsbD (l.wordLength.bits - 1 - j) := by
  have inside : i * l.wordLength.bits + j < l.granted * l.wordLength.bits :=
    calc i * l.wordLength.bits + j < (i + 1) * l.wordLength.bits := by rw [Nat.succ_mul]; omega
      _ ≤ l.granted * l.wordLength.bits := Nat.mul_le_mul_right _ hi
  have slot := hc.trans (wordSlot_eq p side i).symm
  subst hq
  cases hf : format.firstBitDelay with
  | true =>
    have one : delay = 1 := by rw [hd, hf]; rfl
    rw [one, shiftedLevel_delayed hf (by omega), wordBit_word p l 1 side _ hi hj slot]
  | false =>
    have zero : delay = 0 := by rw [hd, hf]; rfl
    rw [zero, shiftedLevel_straight hf (by omega), wordBit_word p l 0 side _ hi hj slot]

/-- A position behind the words is low (R3, R36). -/
theorem shiftedLevel_low (delay : Nat) (hd : delay = if format.firstBitDelay then 1 else 0)
    (past : delay + l.granted * l.wordLength.bits ≤ position) (inside : position < format.halfLength) :
    s.shiftedLevel q p l format side position = false := by
  cases hf : format.firstBitDelay with
  | true =>
    have one : delay = 1 := by rw [hd, hf]; rfl
    rw [shiftedLevel_delayed hf (by omega), wordBit_uncovered q p l 1 side _ (.inr (by omega))]
  | false =>
    have zero : delay = 0 := by rw [hd, hf]; rfl
    rw [shiftedLevel_straight hf (by omega), wordBit_uncovered q p l 0 side _ (.inr (by omega))]

/-- Words that fill the half-frame have their last bit at the edge that ends it (R3). -/
theorem shiftedLevel_lastBit (delayed : format.firstBitDelay = true) (full : l.granted * l.wordLength.bits = format.halfLength)
    {c : Channel} (hq : channelQuad c = q) (hc : channelSlot c = 2 * p.val + 2 * (l.granted - 1) + (if side = .left then 1 else 0))
    (some_ : 1 ≤ l.granted) : s.shiftedLevel q p l format side 0 =
      (wordOfSample l.wordLength (s.endingSamples (s.groupOfQuad q) side)[c]).getLsbD 0 := by
  have bits := sixteen_le_bits l.wordLength
  have last : format.halfLength = 1 + (l.granted - 1) * l.wordLength.bits + (l.wordLength.bits - 1) := by
    rw [← full, Nat.sub_mul, Nat.one_mul]
    have enough := Nat.mul_le_mul_right l.wordLength.bits some_
    omega
  have low : l.wordLength.bits - 1 - (l.wordLength.bits - 1) = 0 := Nat.sub_self _
  subst hq
  rw [shiftedLevel_edge delayed, last,
    wordBit_word p l 1 side.other _ (by omega) (by omega) (hc.trans (wordSlot_other p side _).symm), low]

end

/-- Settles O17: the attention lines, the general pins by their roles, the drive of a lane pin, and the bits of an OUT lane's words. -/
theorem linesFollowTheState : Obligations.LinesFollowTheState := by
  refine ⟨fun s => ⟨attn0_iff s, faultPending_iff s, ready_iff s⟩, fun s k running free => ?pins, fun s k => ?drives,
    fun s q p => ⟨fun unstarted => laneDrive_unstarted unstarted p, fun plan started => ⟨laneDrive_absent started, fun l lane => ?lanes⟩⟩,
    fun s c => ⟨fun none => ?noWord, fun p l lane => ?word⟩, fun s q p side position => ⟨?silent, ?low⟩,
    fun s q p plan format l words started lane => ?bits⟩
  case pins =>
    refine ⟨pinLevel_board free, fun role => ?_, fun role => ?_, fun g role => ?_, fun g role => ?_⟩
    · rw [pinLevel_driven running free (level := false) (by rw [role]; rfl), Bool.false_and]
    · rw [pinLevel_driven running free (level := true) (by rw [role]; rfl)]
      cases s.pins[k].openDrain <;> rfl
    · exact pinLevel_driven running free (by rw [role]; cases g <;> rfl)
    · exact pinLevel_driven running free (by rw [role]; cases g <;> rfl)
  case drives =>
    intro role level
    have hrole : s.roleLevel s.pins[k].role = role := by
      simp only [role]
      cases s.pins[k].role <;> rfl
    have output (running : s.resetHeld = false) : s.pinOutput k = level := by
      rw [State.pinOutput, if_neg (by simp [running]), hrole]
      exact ite_congr (propext ((pinTaken_iff s k))) (fun _ => rfl) fun _ => rfl
    refine ⟨fun held => ?_, fun running => ?_, ?_⟩
    · simp [State.pinDrive, State.pinOutput, held]
    · rw [State.pinDrive, output running]
      generalize level = shown
      match shown with
      | none => rfl
      | some false => rfl
      | some true => rfl
    · unfold State.pinLevel
      cases s.pinDrive k <;> rfl
  case lanes =>
    intro g waits
    refine ⟨laneDrive_input started lane, fun dir held => ?_, fun dir driven idle => ?_, fun dir driven locked => ?_⟩
    · rw [laneDrive_output started lane dir, if_pos held]
    · rw [laneDrive_output started lane dir, if_neg driven]
      exact if_neg idle
    · rw [laneDrive_output started lane dir, if_neg driven]
      exact if_pos locked
  case noWord => rw [State.outputWord, none]
  case word => rw [State.outputWord, lane]
  case silent =>
    rintro (high | captured)
    · simp only [State.laneLevel, high]
    · simp only [State.laneLevel, captured]
  case low =>
    intro driven
    simp only [State.laneLevel, driven]
  case bits =>
    intro g d len framed fits
    have group : s.groupOfQuad q = g := groupOfQuad_eq started
    have level (side : Side) (position : Nat) : s.laneLevel q p side position = some (s.shiftedLevel q p l format side position) :=
      laneLevel_words words started lane (by rw [group]; exact framed) side position
    refine ⟨fun side i j c hi hj hq hc => ?_, fun side position past inside => ?_, fun side delayed short => ?_,
      fun side c delayed full hq hc some_ => ?_, fun side straight some_ => ?_⟩
    · rw [level, shiftedLevel_word d rfl fits hi hj hq hc]
    · rw [level, shiftedLevel_low d rfl past inside]
    · have past : 1 + l.granted * l.wordLength.bits ≤ format.halfLength := by
        rw [Nat.add_comm]
        exact short
      rw [level, shiftedLevel_edge delayed, wordBit_uncovered _ _ _ _ _ _ (.inr past)]
    · rw [level, shiftedLevel_lastBit delayed full hq hc some_, endingSamples_get, group]
    · have bits := sixteen_le_bits l.wordLength
      have enough := Nat.mul_le_mul_right l.wordLength.bits some_
      have covered : l.granted * l.wordLength.bits ≤ format.halfLength := fits
      have inside : 0 ≠ format.halfLength := by omega
      rw [level, level, shiftedLevel_next straight, shiftedLevel_straight straight inside]
      cases side <;> rfl

end Sys2Proof.Machine
end

section
/-! PROOFS. The lanes when a group halts and when a half-frame begins; the loss timer, slips and the edges outside ACQUIRING (R10, R14, R16 to R19, R25, R26, R35). -/

namespace Sys2Proof.Machine

variable {s t u : State}

/-! ### What the quads decide (R2, R5, R91) -/

theorem bJoined_of_quads (h : t.lane.quads = s.lane.quads) : t.bJoined = s.bJoined := by
  rw [bJoined_eq, bJoined_eq, quad_of_quads h]

theorem groupOfChannel_of_quads (h : t.lane.quads = s.lane.quads) (c : Channel) : t.groupOfChannel c = s.groupOfChannel c := by
  simp only [State.groupOfChannel, State.groupOfQuad, bJoined_of_quads h]

theorem isInput_of_quads (h : t.lane.quads = s.lane.quads) (c : Channel) : t.isInput c = s.isInput c := by
  simp only [State.isInput, State.channelLane, quad_of_quads h]

theorem isInputOf_of_quads (h : t.lane.quads = s.lane.quads) (g : GroupId) (c : Channel) : t.isInputOf g c = s.isInputOf g c := by
  rw [State.isInputOf, State.isInputOf, isInput_of_quads h, groupOfChannel_of_quads h]

theorem isOutputOf_of_quads (h : t.lane.quads = s.lane.quads) (g : GroupId) (c : Channel) : t.isOutputOf g c = s.isOutputOf g c := by
  rw [State.isOutputOf, State.isOutputOf, isOutput_of_quads h, groupOfChannel_of_quads h]

theorem fillWhere_get {α : Type} {n : Nat} (v : Vector α n) (chosen : Fin n → Bool) (x : α) (i : Fin n) :
    (fillWhere v chosen x)[i] = if chosen i = true then x else v[i] := by
  simp [fillWhere]

/-! ### Records that agree field by field -/

theorem State.eq_of_fields (pending : t.pending = s.pending) (resetHeld : t.resetHeld = s.resetHeld) (straps : t.straps = s.straps)
    (lane : t.lane = s.lane) (word : t.word = s.word) (mix : t.mix = s.mix) (cues : t.cues = s.cues) (mem : t.mem = s.mem)
    (link : t.link = s.link) (faults : t.faults = s.faults) (pins : t.pins = s.pins) (free : t.free = s.free) : t = s := by
  cases s
  cases t
  cases pending; cases resetHeld; cases straps; cases lane; cases word; cases mix; cases cues; cases mem; cases link; cases faults
  cases pins; cases free
  rfl

theorem LaneInterface.eq_of_fields {a b : LaneInterface} (quads : a.quads = b.quads) (groups : a.groups = b.groups)
    (joinedCapture : a.joinedCapture = b.joinedCapture) (joinedDriven : a.joinedDriven = b.joinedDriven) : a = b := by
  cases a; cases b; cases quads; cases groups; cases joinedCapture; cases joinedDriven
  rfl

theorem WordPath.eq_of_fields {a b : WordPath} (capture : a.capture = b.capture) (inSlot : a.inSlot = b.inSlot)
    (outSlot : a.outSlot = b.outSlot) (lastWord : a.lastWord = b.lastWord) (settled : a.settled = b.settled)
    (previous : a.previous = b.previous) (firstFrame : a.firstFrame = b.firstFrame) : a = b := by
  cases a; cases b; cases capture; cases inSlot; cases outSlot; cases lastWord; cases settled; cases previous; cases firstFrame
  rfl

theorem MixEngine.eq_of_fields {a b : MixEngine} (buses : a.buses = b.buses) (xp : a.xp = b.xp) (routes : a.routes = b.routes)
    (passes : a.passes = b.passes) : a = b := by
  cases a; cases b; cases buses; cases xp; cases routes; cases passes
  rfl

/-! ### A group that halts (R10, R25, R35) -/

theorem departLocked_settled (s : State) (g : GroupId) :
    (s.departLocked g).word.settled = fillWhere s.word.settled (s.isOutputOf g) 0 := by
  simp only [State.departLocked, driveJoined_frame, markLeftLocked_frame, State.silence, setGroup_word]

theorem departLocked_previous (s : State) (g : GroupId) :
    (s.departLocked g).word.previous = fillWhere s.word.previous (s.isOutputOf g) 0 := by
  simp only [State.departLocked, driveJoined_frame, markLeftLocked_frame, State.silence, setGroup_word]

theorem departLocked_joinedDriven (s : State) (g : GroupId) : (s.departLocked g).lane.joinedDriven =
    (s.lane.joinedDriven || (decide (g = .A) && s.bJoined)) := by
  have joined : (((s.setGroup g { s.group g with
      markOut := if (s.group g).markMode = .pulse then false else (s.group g).markOut }).silence
        (s.isOutputOf g)).markLeftLocked g).bJoined = s.bJoined := bJoined_of_quads (by simp)
  simp only [State.departLocked, State.driveJoined, joined, markLeftLocked_frame, silence_lane, setGroup_joinedDriven]

/-- The halt of a group empties its capture registers (R25). -/
theorem haltGroup_capture (s : State) (g : GroupId) (st : GroupState) :
    (s.haltGroup g st).word.capture = fillWhere s.word.capture (s.isInputOf g) Capture.empty := by
  unfold State.haltGroup
  simp only [occur_word, setGroup_word, State.emptyCapture]
  split
  · simp only [departLocked_frame]
  · rfl

/-- A group that was LOCKED has its outputs transmit zero from its halt on (R35). -/
theorem haltGroup_settled (s : State) (g : GroupId) (st : GroupState) : (s.haltGroup g st).word.settled =
    if (s.group g).state = .locked then fillWhere s.word.settled (s.isOutputOf g) 0 else s.word.settled := by
  unfold State.haltGroup
  simp only [occur_word, setGroup_word, emptyCapture_settled]
  split
  · exact departLocked_settled s g
  · rfl

theorem haltGroup_previous (s : State) (g : GroupId) (st : GroupState) : (s.haltGroup g st).word.previous =
    if (s.group g).state = .locked then fillWhere s.word.previous (s.isOutputOf g) 0 else s.word.previous := by
  unfold State.haltGroup
  simp only [occur_word, setGroup_word, emptyCapture_previous]
  split
  · exact departLocked_previous s g
  · rfl

theorem ite_fillWhere_get {α : Type} {n : Nat} (p : Prop) [Decidable p] (v : Vector α n) (chosen : Fin n → Bool) (x : α) (i : Fin n) :
    (if p then fillWhere v chosen x else v)[i] = if p ∧ chosen i = true then x else v[i] := by
  by_cases hp : p
  · simp only [hp, if_true, true_and, fillWhere_get]
  · simp only [hp, if_false, false_and]

theorem haltGroup_joinedDriven (s : State) (g : GroupId) (st : GroupState) : (s.haltGroup g st).lane.joinedDriven =
    (s.lane.joinedDriven || (decide (g = .A ∧ (s.group g).state = .locked) && s.bJoined)) := by
  unfold State.haltGroup
  simp only [occur_lane, setGroup_joinedDriven, emptyCapture_lane]
  split
  case isTrue locked => simp [departLocked_joinedDriven, locked]
  case isFalse unlocked => simp [unlocked]

theorem haltGroup_haltsLanes (s : State) (g : GroupId) (st : GroupState) : s.HaltsLanes g (s.haltGroup g st) := by
  refine ⟨WordPath.eq_of_fields rfl (by simp) (by simp) (by simp) rfl rfl (by simp), fun c => ⟨?_, ?_, ?_⟩,
    haltGroup_joinedDriven s g st⟩
  · rw [haltGroup_capture]
    exact fillWhere_get _ _ _ c
  · rw [haltGroup_settled, ite_fillWhere_get]
  · rw [haltGroup_previous, ite_fillWhere_get]

theorem haltGroup_link (s : State) (g : GroupId) (st : GroupState) : (s.haltGroup g st).link = s.link.occur .lock .live := by
  unfold State.haltGroup
  simp only [occur_link, setGroup_link, emptyCapture_link]
  split
  · simp only [departLocked_frame]
  · rfl

/-- A halt touches the group's record, the drive of a joined quad B, the word path, the passes and the link. -/
theorem haltGroup_eq (s : State) (g : GroupId) (st : GroupState) : s.haltGroup g st = { s with
    lane := { (s.haltGroup g st).lane with quads := s.lane.quads, joinedCapture := s.lane.joinedCapture }
    word := (s.haltGroup g st).word
    mix := { s.mix with passes := (s.haltGroup g st).mix.passes }
    link := s.link.occur .lock .live } := by
  refine State.eq_of_fields (by simp) (by simp) (by simp) (LaneInterface.eq_of_fields (by simp) rfl (by simp) rfl) rfl
    (MixEngine.eq_of_fields (by simp) (by simp) (by simp) rfl) (by simp) (by simp) (haltGroup_link s g st) (by simp) (by simp) (by simp)

/-- A halt does not look at the fault stack, nor at the link but to raise LOCK. -/
theorem haltGroup_with (s : State) (fs : List FaultRecord) (l : Link) (g : GroupId) (st : GroupState) :
    State.haltGroup { s with faults := fs, link := l } g st = { s.haltGroup g st with faults := fs, link := l.occur .lock .live } := by
  have same : State.group { s with faults := fs, link := l } g = s.group g := rfl
  unfold State.haltGroup
  rw [same]
  by_cases locked : (s.group g).state = .locked
  · simp only [locked, if_true]
    rfl
  · simp only [locked, if_false]
    rfl

/-- What the fall of a running group out of LOCKED leaves, with the fault that is pushed for it (R17, R18). -/
theorem fall_eq (s : State) (f : FaultRecord) (g : GroupId) (st : GroupState) : (s.pushFault f).haltGroup g st =
    { s.haltGroup g st with faults := (s.pushFault f).faults, link := (s.link.occur .fault .live).occur .lock .live } := by
  rw [pushFault_eq, haltGroup_with]

/-- The mark output of a LOCKED group after its halt: a pulse ends (R23). -/
theorem haltGroup_groups_locked {g : GroupId} (locked : (s.group g).state = .locked) (st : GroupState) :
    (s.haltGroup g st).lane.groups = s.lane.groups.set g { s.group g with
      state := st, count := 0, half := none, goodLeft := false, startDue := false, startMade := false, lossTimer := false,
      markOut := (s.group g).markOut && !(decide ((s.group g).markMode = .pulse)) } := by
  rw [haltGroup_groups]
  simp only [locked, true_and]

theorem haltGroup_pass_locked {g : GroupId} (locked : (s.group g).state = .locked) (st : GroupState) (o : GroupId) :
    (s.haltGroup g st).pass o = (s.pass o).map fun p => if o = g then { p with leftLocked := true } else p := by
  rw [haltGroup_pass]
  simp only [locked, and_true]

/-- What a LOCKED group's fall to LOST leaves behind, in the words of the statements (R17, R18, R23, R25, R35, R80). -/
theorem fall_leaves {g : GroupId} (locked : (s.group g).state = .locked) (f : FaultRecord) :
    ∃ t, t = (s.pushFault f).haltGroup g .lost ∧
      t = { s with lane := { t.lane with quads := s.lane.quads, joinedCapture := s.lane.joinedCapture }, word := t.word,
                   mix := { s.mix with passes := t.mix.passes }, link := (s.link.occur .fault .live).occur .lock .live,
                   faults := t.faults } ∧
      t.faults = (s.pushFault f).faults ∧
      t.lane.groups = s.lane.groups.set g { s.group g with
        state := .lost, count := 0, half := none, goodLeft := false, startDue := false, startMade := false, lossTimer := false,
        markOut := (s.group g).markOut && !(decide ((s.group g).markMode = .pulse)) } ∧
      (∀ o, t.pass o = (s.pass o).map fun p => if o = g then { p with leftLocked := true } else p) ∧
      t.word.inSlot = s.word.inSlot ∧ t.word.outSlot = s.word.outSlot ∧ t.word.lastWord = s.word.lastWord ∧ s.HaltsLanes g t := by
  have lanes := haltGroup_haltsLanes s g .lost
  have groups := haltGroup_groups_locked locked .lost
  have pass := haltGroup_pass_locked locked .lost
  have inSlot : (s.haltGroup g .lost).word.inSlot = s.word.inSlot := by simp
  have outSlot : (s.haltGroup g .lost).word.outSlot = s.word.outSlot := by simp
  have lastWord : (s.haltGroup g .lost).word.lastWord = s.word.lastWord := by simp
  have whole := haltGroup_eq s g .lost
  rw [fall_eq]
  generalize s.haltGroup g .lost = halted at *
  refine ⟨_, rfl, ?_, rfl, groups, pass, inSlot, outSlot, lastWord, lanes⟩
  exact congrArg (fun v : State => { v with
    faults := (s.pushFault f).faults, link := (s.link.occur .fault .live).occur .lock .live }) whole

/-! ### The loss timer (R18) -/

theorem exec_lossTimerExpiry (s : State) (g : GroupId) : exec (.lossTimerExpiry g) s = execLossTimerExpiry g s := rfl

/-- Settles O27: a timer that has stopped, one that expires in ACQUIRING, and one that expires in LOCKED. -/
theorem lossTimerExpires : Obligations.LossTimerExpires := by
  intro s g
  refine ⟨fun stopped => ?_, fun runs acquiring => ?_, fun runs locked => ?_⟩
  · simp [exec_lossTimerExpiry, execLossTimerExpiry, stopped]
  · simp only [exec_lossTimerExpiry, execLossTimerExpiry, runs, acquiring, if_true]
    rfl
  · obtain ⟨t, ht, leaves⟩ := fall_leaves locked (FaultRecord.of .clockLoss g (s.group g).counter)
    refine ⟨t, ?_, leaves⟩
    simp only [exec_lossTimerExpiry, execLossTimerExpiry, runs, locked, if_true]
    rw [ht]

/-! ### A half-frame that begins (R4, R10, R25, R26) -/

/-- A half-frame begins the same from every state that has the same quads and capture (R10, R25). -/
theorem beginHalf_begins (quads : u.lane.quads = s.lane.quads) (capture : u.word.capture = s.word.capture)
    (joined : u.lane.joinedCapture = s.lane.joinedCapture) (g : GroupId) (side : Side) : s.BeginsHalf g side (u.beginHalf g side) := by
  refine ⟨fun c => (fillWhere_get _ _ _ c).trans ?_, ?_⟩
  · rw [capture]
    refine ite_congr (propext ?_) (fun _ => rfl) fun _ => rfl
    rw [Bool.and_eq_true, decide_eq_true_iff, isInputOf_of_quads quads]
  · have begun : (u.beginHalf g side).lane.joinedCapture =
        (u.lane.joinedCapture || (decide (g = .A ∧ side = .left) && u.bJoined)) := rfl
    rw [begun, joined, bJoined_of_quads quads]

/-- A half-frame that begins touches the group's record, the capture registers and the capture of a joined quad B. -/
theorem beginHalf_eq (s : State) (g : GroupId) (side : Side) : s.beginHalf g side = { s with
    lane := { (s.beginHalf g side).lane with quads := s.lane.quads, joinedDriven := s.lane.joinedDriven }
    word := { s.word with capture := (s.beginHalf g side).word.capture } } := by
  refine State.eq_of_fields (by simp) (by simp) (by simp) (LaneInterface.eq_of_fields (by simp) rfl rfl (by simp))
    (WordPath.eq_of_fields rfl (by simp) (by simp) (by simp) (by simp) (by simp) (by simp)) (by simp) (by simp) (by simp) (by simp)
    (by simp) (by simp) (by simp)

/-! ### The edges of word select outside ACQUIRING (R14, R16, R17, R19, R20) -/

theorem exec_wordSelectEdge (s : State) (g : GroupId) (high : Bool) (length : Nat) :
    exec (.wordSelectEdge g high length) s = execWordSelectEdge g high length s := rfl

theorem edgePossible_iff {h : HalfFrame} {side : Side} {length : Nat} :
    edgePossible h side length = true ↔ side ≠ h.side ∧ h.length ≤ length := decide_eq_true_iff

section
variable {g : GroupId} {high : Bool} {length : Nat} {plan : Plan} {h : HalfFrame}

/-- An edge of a quad that is not STARTED is ignored (R14). -/
theorem edge_unstarted (unstarted : (s.quad g).startedPlan = none) (high : Bool) (length : Nat) :
    exec (.wordSelectEdge g high length) s = .next s := by
  rw [exec_wordSelectEdge, execWordSelectEdge, unstarted]

theorem edge_ignored (started : (s.quad g).startedPlan = some plan) (still : (s.group g).state = .off ∨ (s.group g).state = .standby)
    (high : Bool) (length : Nat) : exec (.wordSelectEdge g high length) s = .next s := by
  rw [exec_wordSelectEdge, execWordSelectEdge, started]
  obtain off | standby := still
  · simp only [off]
  · simp only [standby]

/-- The first edge in LOST begins an acquisition (R19). -/
theorem edge_lost (started : (s.quad g).startedPlan = some plan) (lost : (s.group g).state = .lost) (high : Bool) (length : Nat) :
    exec (.wordSelectEdge g high length) s = .next ((s.acquire g).beginHalf g (plan.polarity.side high)) := by
  rw [exec_wordSelectEdge, execWordSelectEdge, started]
  simp only [lost]

/-- An edge in LOCKED that the half-frame allows judges the half-frame it ends (R16, R17). -/
theorem edge_locked (started : (s.quad g).startedPlan = some plan) (locked : (s.group g).state = .locked)
    (half : (s.group g).half = some h) (other : h.side ≠ plan.polarity.side high) (enough : h.length ≤ length) :
    exec (.wordSelectEdge g high length) s = .next (
      if length = plan.halfLength then (s.judgeLocked g h.side plan.firstBitDelay).beginHalf g (plan.polarity.side high)
      else s.slip g) := by
  rw [exec_wordSelectEdge, execWordSelectEdge, started]
  simp only [locked, half]
  rw [if_pos (edgePossible_iff.mpr ⟨other.symm, enough⟩)]

end

/-- The side that is not the left one is the right one. -/
theorem side_of_other {a b : Side} (h : a ≠ b) (left : a = .left) : b = .right := by
  cases b with
  | left => exact absurd left h
  | right => rfl

/-- Settles O26: the edge by the group's state, and in LOCKED by the half-frame that it ends. -/
theorem slipsAndLostEdges : Obligations.SlipsAndLostEdges := by
  refine ⟨fun s g high length unstarted => edge_unstarted unstarted high length, fun s g high length plan started =>
    ⟨fun still => edge_ignored started still high length, fun lost => ?lost, fun h locked half other enough =>
      ⟨fun bad => ?slip, fun good left => ?left⟩⟩⟩
  case lost =>
    refine ⟨_, edge_lost started lost high length, ?_, ?_, ?_⟩
    · exact beginHalf_eq (s.acquire g) g _
    · rw [beginHalf_groups, acquire_groups, PerLetter.set_set, group_of_set (acquire_groups s g), if_pos rfl]
    · exact beginHalf_begins rfl rfl rfl g _
  case slip =>
    obtain ⟨t, ht, leaves⟩ := fall_leaves locked (FaultRecord.of .slip g (s.group g).counter)
    refine ⟨t, ?_, leaves⟩
    rw [edge_locked started locked half other enough, if_neg bad, ht]
    rfl
  case left =>
    have side := side_of_other other left
    have judged : s.judgeLocked g h.side plan.firstBitDelay = s.setGroup g { s.group g with goodLeft := true, startDue := false } := by
      rw [left]
      rfl
    rw [edge_locked started locked half other enough, if_pos good, judged, side]
    refine ⟨_, rfl, beginHalf_eq (s.setGroup g _) g _, ?_, beginHalf_begins rfl rfl rfl g _⟩
    rw [beginHalf_groups, setGroup_groups, setGroup_group_self, PerLetter.set_set]

end Sys2Proof.Machine
end

section
/-! PROOFS. GROUP POWER, GROUP MARK and QUAD START (R8 to R10, R20, R22). -/

namespace Sys2Proof.Machine

variable {s t : State} {f : ReceivedFrame} {g : GroupId}

/-! ### A block's work does not look at the request queue (R150) -/

theorem taken_haltGroup (s : State) (g : GroupId) (st : GroupState) : s.taken.haltGroup g st = (s.haltGroup g st).taken := by
  have link : ({ s.link with requests := s.link.requests.tail } : Link).occur .lock .live =
      { (s.haltGroup g st).link with requests := (s.haltGroup g st).link.requests.tail } := by
    rw [haltGroup_link, Link.occur_answered]
  have faults : (s.haltGroup g st).faults = s.faults := by simp
  have halted : s.taken.haltGroup g st = { s.haltGroup g st with
      faults := s.faults, link := ({ s.link with requests := s.link.requests.tail } : Link).occur .lock .live } :=
    haltGroup_with s s.faults _ g st
  rw [halted, link, ← faults]
  rfl

theorem taken_acquire (s : State) (g : GroupId) : s.taken.acquire g = (s.acquire g).taken := by
  have link := Link.occur_answered s.link .lock .live
  exact congrArg (fun l => ({ s.acquire g with link := l } : State)) link

theorem acquire_eq (s : State) (g : GroupId) : s.acquire g = { s with
    lane := { s.lane with groups := s.lane.groups.set g { s.group g with
      state := .acquiring, count := 0, half := none, goodLeft := false, startDue := false, startMade := false, lossTimer := true } }
    link := s.link.occur .lock .live } := rfl

/-- A request that a block carries out is answered with the state the block leaves. -/
theorem takeRequest_answered {kind : RequestKind} {p : List Byte} (h : s.Asks f kind p) {run : List Byte → State → Answer}
    {out : List Byte} (hr : run p s.taken = t.taken.accept out) : s.takeRequest kind run = t.answered f .ok out := by
  rw [takeRequest_eq h, hr]
  exact taken_makeReply t f .ok out

/-! ### GROUP POWER (R20) -/

/-- A GROUP POWER that names a target is taken by that target's command (R20). -/
theorem isPower_of_asks {standby : Bool} (h : s.Asks f .groupPower [byteOfLetter g, byteOfBool standby]) : f.isPower standby = true := by
  obtain ⟨-, outcome, payload⟩ := h
  refine isPower_iff.mpr ⟨outcome, fun o other => ?_⟩
  rw [payload] at other
  cases standby <;> simp [byteOfBool] at other

theorem takeFrame_power {standby : Bool} (h : s.Asks f .groupPower [byteOfLetter g, byteOfBool standby]) {a : Answer}
    (ha : groupPower [byteOfLetter g, byteOfBool standby] s.taken = a) :
    s.takeFrame (ReceivedFrame.isPower standby) (fun f t => groupPower f.payload t) = a.state.makeReply f a.status a.payload := by
  have eq := takeFrame_eq h.1 (isPower_of_asks h) fun f t => groupPower f.payload t
  rw [h.2.2, ha] at eq
  exact eq

theorem exec_powerStandby (s : State) : exec .groupPowerStandby s =
    .next (s.takeFrame (ReceivedFrame.isPower true) fun f t => groupPower f.payload t) := rfl

theorem exec_powerActive (s : State) : exec .groupPowerActive s =
    .next (s.takeFrame (ReceivedFrame.isPower false) fun f t => groupPower f.payload t) := rfl

theorem groupPower_off (standby : Bool) (off : (s.group g).state = .off) :
    groupPower [byteOfLetter g, byteOfBool standby] s = s.refuse .notReady := by
  simp only [groupPower, powerTarget_eq_some.mpr rfl, off]

theorem groupPower_standby (standby : Bool) (resting : (s.group g).state = .standby) :
    groupPower [byteOfLetter g, byteOfBool standby] s = (if standby then s else s.acquire g).accept [] := by
  simp only [groupPower, powerTarget_eq_some.mpr rfl, resting]

theorem groupPower_running (standby : Bool) (running : (s.group g).state ≠ .off) (awake : (s.group g).state ≠ .standby) :
    groupPower [byteOfLetter g, byteOfBool standby] s = (if standby then s.haltGroup g .standby else s).accept [] := by
  have target : powerTarget [byteOfLetter g, byteOfBool standby] = some (g, standby) := powerTarget_eq_some.mpr rfl
  cases state : (s.group g).state with
  | off => exact absurd state running
  | standby => exact absurd state awake
  | acquiring => simp only [groupPower, target, state]
  | locked => simp only [groupPower, target, state]
  | lost => simp only [groupPower, target, state]

/-! ### GROUP MARK (R22) -/

/-- A number of two bytes is read back from them (R173). -/
theorem bytes16_join (x : BitVec 16) : x.extractLsb' 8 8 ++ x.extractLsb' 0 8 = x := by
  rw [BitVec.extractLsb'_append_extractLsb'_eq_extractLsb' (by decide)]
  exact BitVec.extractLsb'_eq_self

theorem bytes24_join (x : BitVec 24) : x.extractLsb' 16 8 ++ x.extractLsb' 8 8 ++ x.extractLsb' 0 8 = x := by
  rw [BitVec.extractLsb'_append_extractLsb'_eq_extractLsb' (by decide), BitVec.extractLsb'_append_extractLsb'_eq_extractLsb' (by decide)]
  exact BitVec.extractLsb'_eq_self

theorem bytes32_join (x : BitVec 32) : x.extractLsb' 24 8 ++ x.extractLsb' 16 8 ++ x.extractLsb' 8 8 ++ x.extractLsb' 0 8 = x := by
  rw [BitVec.extractLsb'_append_extractLsb'_eq_extractLsb' (by decide), BitVec.extractLsb'_append_extractLsb'_eq_extractLsb' (by decide),
    BitVec.extractLsb'_append_extractLsb'_eq_extractLsb' (by decide)]
  exact BitVec.extractLsb'_eq_self

theorem exec_groupMark (s : State) : exec .groupMark s = .next (s.takeRequest .groupMark groupMark) := rfl

theorem markModeOf_code (mode : MarkMode) : markModeOf mode.code = some mode := by cases mode <;> rfl

theorem groupMark_fields (s : State) (g : GroupId) (value : FrameNo) (mode : MarkMode) :
    groupMark ([byteOfLetter g] ++ bytes32 value ++ [mode.code]) s =
      (s.setGroup g { s.group g with mark := value, markMode := mode, markOut := false }).accept [] := by
  have letter : letterOf (byteAt ([byteOfLetter g] ++ bytes32 value ++ [mode.code]) 0) = some g := letterOf_byteOfLetter g
  have code : markModeOf (byteAt ([byteOfLetter g] ++ bytes32 value ++ [mode.code]) 5) = some mode := markModeOf_code mode
  have number : field32 ([byteOfLetter g] ++ bytes32 value ++ [mode.code]) 1 = value := bytes32_join value
  simp only [groupMark, letter, code, number]
  exact if_neg (not_not_intro rfl)

/-- Settles O23: the two targets by the group's state, the halt as `haltGroup` leaves it, and the mark as it is stored. -/
theorem groupPowerAndMark : Obligations.GroupPowerAndMark := by
  refine ⟨fun s f g => ⟨fun ha => ⟨fun off => ?_, fun resting => ?_, fun running awake => ?halt⟩,
    fun ha => ⟨fun off => ?_, fun running awake => ?_, fun resting => ?acquire⟩⟩, fun s f g value mode ha => ?mark⟩
  · rw [exec_powerStandby, takeFrame_power ha (groupPower_off (s := s.taken) true off)]
    exact congrArg Host.Outcome.next (taken_makeReply s f .notReady [])
  · rw [exec_powerStandby, takeFrame_power ha (groupPower_standby (s := s.taken) true resting)]
    exact congrArg Host.Outcome.next (taken_makeReply s f .ok [])
  case halt =>
    have halted := takeFrame_power ha (groupPower_running (s := s.taken) true running awake)
    have lanes := haltGroup_haltsLanes s g .standby
    have groups := haltGroup_groups s g .standby
    have pass := haltGroup_pass s g .standby
    have inSlot : (s.haltGroup g .standby).word.inSlot = s.word.inSlot := by simp
    have outSlot : (s.haltGroup g .standby).word.outSlot = s.word.outSlot := by simp
    have lastWord : (s.haltGroup g .standby).word.lastWord = s.word.lastWord := by simp
    have firstFrame : (s.haltGroup g .standby).word.firstFrame = s.word.firstFrame := by simp
    have whole := haltGroup_eq s g .standby
    have taken := taken_haltGroup s g .standby
    rw [exec_powerStandby, halted]
    refine ⟨(s.haltGroup g .standby).answered f .ok [], ?_, ?_⟩
    · refine congrArg Host.Outcome.next (Eq.trans ?_ (taken_makeReply (s.haltGroup g .standby) f .ok []))
      exact congrArg (fun v : State => v.makeReply f .ok []) taken
    · generalize s.haltGroup g .standby = rest at *
      refine ⟨congrArg (fun v : State => v.answered f .ok []) whole, groups, pass, inSlot, outSlot, lastWord, firstFrame,
        fun c input => ?_, lanes⟩
      have empty : rest.word.capture[c] = ⟨0, 0⟩ := (lanes.2.1 c).1.trans (if_pos input)
      exact congrArg Capture.count empty
  · rw [exec_powerActive, takeFrame_power ha (groupPower_off (s := s.taken) false off)]
    exact congrArg Host.Outcome.next (taken_makeReply s f .notReady [])
  · rw [exec_powerActive, takeFrame_power ha (groupPower_running (s := s.taken) false running awake)]
    exact congrArg Host.Outcome.next (taken_makeReply s f .ok [])
  case acquire =>
    have acquired := takeFrame_power ha (groupPower_standby (s := s.taken) false resting)
    have replied : (s.taken.acquire g).makeReply f .ok [] = (s.acquire g).answered f .ok [] := by
      rw [taken_acquire, taken_makeReply]
    rw [exec_powerActive, acquired]
    exact congrArg Host.Outcome.next replied
  case mark =>
    rw [exec_groupMark, takeRequest_answered (t := s.setGroup g _) ha (groupMark_fields s.taken g value mode)]
    rfl

/-! ### QUAD START (R8 to R10) -/

theorem exec_quadStart (s : State) : exec .quadStart s = .next (s.takeRequest .quadStart quadStart) := rfl

/-- A plan fits a half-frame when every present lane's words do (R6, R8). -/
theorem fits_iff (plan : Plan) (n : Nat) :
    plan.fits n = true ↔ ∀ (i : LanePos), ∀ l ∈ plan.lanes[i], l.granted * l.wordLength.bits ≤ n := by
  have lane (i : LanePos) : (match plan.lanes[i] with
      | some l => decide (l.granted * l.wordLength.bits ≤ n)
      | none => true) = true ↔ ∀ l ∈ plan.lanes[i], l.granted * l.wordLength.bits ≤ n := by
    cases plan.lanes[i] <;> simp
  refine (List.all_eq_true).trans ⟨fun all i => (lane i).mp (all i (List.mem_finRange i)), fun all i _ => (lane i).mpr (all i)⟩

section
variable {q : QuadId} {plan planA : Plan}

theorem quadStart_unplanned (h : s.quad q = .unplanned) : quadStart [byteOfLetter q] s = s.refuse .notReady := by
  have letter : letterOf (byteAt [byteOfLetter q] 0) = some q := letterOf_byteOfLetter q
  simp only [quadStart, letter, h]
  exact if_neg (not_not_intro rfl)

theorem quadStart_started (h : (s.quad q).startedPlan ≠ none) : quadStart [byteOfLetter q] s = s.refuse .planFixed := by
  have letter : letterOf (byteAt [byteOfLetter q] 0) = some q := letterOf_byteOfLetter q
  cases hq : s.quad q with
  | unplanned => exact absurd (by rw [hq]; rfl) h
  | planned p => exact absurd (by rw [hq]; rfl) h
  | started p =>
    simp only [quadStart, letter, hq]
    exact if_neg (not_not_intro rfl)

/-- QUAD START of a planned quad, by the joined flag (R8 to R10). -/
theorem quadStart_unjoined (h : s.quad q = .planned plan) (alone : plan.joined = false) :
    quadStart [byteOfLetter q] s = ((s.startQuad q plan).startGroup q).accept [] := by
  have letter : letterOf (byteAt [byteOfLetter q] 0) = some q := letterOf_byteOfLetter q
  simp only [quadStart, letter, h, alone]
  exact if_neg (not_not_intro rfl)

theorem quadStart_waits (h : s.quad q = .planned plan) (joined : plan.joined = true) (unstarted : (s.quad .A).startedPlan = none) :
    quadStart [byteOfLetter q] s = s.refuse .notReady := by
  have letter : letterOf (byteAt [byteOfLetter q] 0) = some q := letterOf_byteOfLetter q
  simp only [quadStart, letter, h, joined, unstarted]
  exact if_neg (not_not_intro rfl)

theorem quadStart_joined (h : s.quad q = .planned plan) (joined : plan.joined = true) (started : (s.quad .A).startedPlan = some planA) :
    quadStart [byteOfLetter q] s = if plan.fits planA.halfLength then ((s.startQuad q plan).startJoined).accept []
      else s.refuse .badFormat := by
  have letter : letterOf (byteAt [byteOfLetter q] 0) = some q := letterOf_byteOfLetter q
  simp only [quadStart, letter, h, joined, started]
  exact if_neg (not_not_intro rfl)

/-! What a quad that starts leaves as it was (R9, R10). -/

theorem taken_startQuad (s : State) (q : QuadId) (plan : Plan) : s.taken.startQuad q plan = (s.startQuad q plan).taken := by
  have outputs : (s.taken.setQuad q (.started plan)).isOutput = (s.setQuad q (.started plan)).isOutput :=
    funext (isOutput_congr rfl)
  unfold State.startQuad State.freeOutputs
  rw [outputs]
  rfl

theorem startQuad_route (s : State) (q : QuadId) (plan : Plan) (c : Channel) : (s.startQuad q plan).route c =
    if channelQuad c = q ∧ (s.setQuad q (.started plan)).isOutput c = true then .free else s.route c := by
  rw [State.startQuad, freeOutputs_route]
  refine ite_congr (propext ?_) (fun _ => rfl) fun _ => rfl
  rw [Bool.and_eq_true, decide_eq_true_iff]
  exact and_comm

theorem startQuad_eq (s : State) (q : QuadId) (plan : Plan) : s.startQuad q plan = { s with
    lane := { s.lane with quads := s.lane.quads.set q (.started plan) }
    mix := { s.mix with routes := (s.startQuad q plan).mix.routes } } := rfl

/-- Settles O21: what `quadStart` refuses, and the two starts by the joined flag. -/
theorem quadStartStartsTheQuad : Obligations.QuadStartStartsTheQuad := by
  intro s f q ha
  refine ⟨fun unplanned => ?_, fun started => ?_, fun plan planned => ⟨fun alone => ?alone, fun joined unstarted => ?_,
    fun planA joined started => ⟨fun wide => ?_, fun fits => ?joined⟩⟩⟩
  · rw [exec_quadStart, takeRequest_refused ha (quadStart_unplanned (s := s.taken) unplanned)]
  · rw [exec_quadStart, takeRequest_refused ha (quadStart_started (s := s.taken) started)]
  case alone =>
    have accepted := quadStart_unjoined (s := s.taken) planned alone
    have taken : (s.taken.startQuad q plan).startGroup q = ((s.startQuad q plan).startGroup q).taken := by
      rw [taken_startQuad]
      exact taken_acquire ((s.startQuad q plan).setGroup q { (s.startQuad q plan).group q with counter := 0 }) q
    rw [taken] at accepted
    obtain ⟨t, ht⟩ : ∃ t, t = (s.startQuad q plan).startGroup q := ⟨_, rfl⟩
    have quads : t.lane.quads = (s.setQuad q (.started plan)).lane.quads := by rw [ht]; rfl
    have groups : t.lane.groups = s.lane.groups.set q { s.group q with
        state := .acquiring, count := 0, half := none, goodLeft := false, startDue := false, startMade := false,
        counter := 0, lossTimer := true } := by
      rw [ht]
      exact startGroup_groups (s.startQuad q plan) q
    have routes : t.mix.routes = (s.startQuad q plan).mix.routes := by rw [ht]; rfl
    rw [exec_quadStart, takeRequest_answered ha accepted, ← ht]
    have whole : t = { s with
        lane := { t.lane with joinedCapture := s.lane.joinedCapture, joinedDriven := s.lane.joinedDriven }
        mix := { s.mix with routes := t.mix.routes }
        link := s.link.occur .lock .live } := by
      refine State.eq_of_fields ?_ ?_ ?_ (LaneInterface.eq_of_fields rfl rfl ?_ ?_) ?_ (MixEngine.eq_of_fields ?_ ?_ rfl ?_) ?_ ?_ ?_ ?_ ?_ ?_
      all_goals
        rw [ht]
        rfl
    have route (c : Channel) : t.route c = (s.startQuad q plan).route c := congrArg (fun v : Vector Route 16 => v[c]) routes
    refine ⟨_, rfl, congrArg (fun v : State => v.answered f .ok []) whole, quads, groups, fun c => ?_⟩
    rw [isOutput_of_quads (t := t.answered f .ok []) quads c]
    exact (route c).trans (startQuad_route s q plan c)
  · rw [exec_quadStart, takeRequest_refused ha (quadStart_waits (s := s.taken) planned joined unstarted)]
  · have accepted := quadStart_joined (s := s.taken) planned joined started
    rw [if_neg (mt (fits_iff plan planA.halfLength).mp wide)] at accepted
    rw [exec_quadStart, takeRequest_refused ha accepted]
  case joined =>
    have accepted := quadStart_joined (s := s.taken) planned joined started
    have taken : (s.taken.startQuad q plan).startJoined = ((s.startQuad q plan).startJoined).taken := by
      rw [taken_startQuad]
      rfl
    rw [if_pos ((fits_iff plan planA.halfLength).mpr fits), taken] at accepted
    rw [exec_quadStart, takeRequest_answered ha accepted]
    refine ⟨_, rfl, rfl, fun c => ?_⟩
    rw [isOutput_of_quads (t := (s.startQuad q plan).startJoined.answered f .ok []) (s := s.setQuad q (.started plan)) rfl c]
    exact startQuad_route s q plan c

end

end Sys2Proof.Machine
end

section
/-! PROOFS. The edges of word select in ACQUIRING, and the edge that ends a good frame in LOCKED (R15, R16, R22, R28, R63, R78). -/

namespace Sys2Proof.Machine

variable {s t u : State} {g : GroupId} {plan : Plan} {high : Bool} {length : Nat} {h : HalfFrame}

/-! ### The end of a half-frame in ACQUIRING (R15) -/

theorem PerLetter.set_get {α : Type} (p : PerLetter α) (l : Letter) : p.set l (p.get l) = p := by
  cases l <;> rfl

theorem judgeAcquiring_bad (s : State) (g : GroupId) (side : Side) :
    s.judgeAcquiring g side false = s.setGroup g { s.group g with count := 0, goodLeft := false } := rfl

theorem judgeAcquiring_left (s : State) (g : GroupId) :
    s.judgeAcquiring g .left true = s.setGroup g { s.group g with goodLeft := true } := rfl

theorem judgeAcquiring_unpaired (odd : (s.group g).goodLeft = false) : s.judgeAcquiring g .right true = s := by
  simp [State.judgeAcquiring, odd]

/-- The first good frame in a row is counted (R15). -/
theorem judgeAcquiring_first (pair : (s.group g).goodLeft = true) (first : (s.group g).count = 0) :
    s.judgeAcquiring g .right true = s.setGroup g { s.group g with count := 1, goodLeft := false } := by
  simp [State.judgeAcquiring, pair, first]

/-- The second good frame in a row locks the group (R15). -/
theorem judgeAcquiring_locks (pair : (s.group g).goodLeft = true) (second : 1 ≤ (s.group g).count) :
    s.judgeAcquiring g .right true = (s.setGroup g { s.group g with goodLeft := false }).enterLocked g := by
  have notFirst : ¬ (s.group g).count + 1 < 2 := by omega
  simp [State.judgeAcquiring, pair, notFirst]

/-- What the end of a half-frame in ACQUIRING may touch: the group's state, count and good left half, the output side and the link. -/
structure State.JudgedFrom (u s : State) (g : GroupId) : Prop where
  pending : u.pending = s.pending
  resetHeld : u.resetHeld = s.resetHeld
  straps : u.straps = s.straps
  quads : u.lane.quads = s.lane.quads
  joinedCapture : u.lane.joinedCapture = s.lane.joinedCapture
  joinedDriven : u.lane.joinedDriven = s.lane.joinedDriven
  capture : u.word.capture = s.word.capture
  inSlot : u.word.inSlot = s.word.inSlot
  settled : u.word.settled = s.word.settled
  previous : u.word.previous = s.word.previous
  mix : u.mix = s.mix
  cues : u.cues = s.cues
  mem : u.mem = s.mem
  faults : u.faults = s.faults
  pins : u.pins = s.pins
  free : u.free = s.free
  groups : u.lane.groups = s.lane.groups.set g { s.group g with
    state := (u.group g).state, count := (u.group g).count, goodLeft := (u.group g).goodLeft }

theorem judgedFrom_refl (s : State) (g : GroupId) : s.JudgedFrom s g :=
  ⟨rfl, rfl, rfl, rfl, rfl, rfl, rfl, rfl, rfl, rfl, rfl, rfl, rfl, rfl, rfl, rfl, (PerLetter.set_get s.lane.groups g).symm⟩

theorem judgedFrom_of_groups {side : Side} {good : Bool} {state : GroupState} {count : Nat} {goodLeft : Bool}
    (groups : (s.judgeAcquiring g side good).lane.groups = s.lane.groups.set g { s.group g with
      state := state, count := count, goodLeft := goodLeft }) : (s.judgeAcquiring g side good).JudgedFrom s g := by
  have group : (s.judgeAcquiring g side good).group g = { s.group g with state := state, count := count, goodLeft := goodLeft } :=
    (group_of_set groups g).trans (if_pos rfl)
  constructor
  case groups => rw [group, groups]
  all_goals simp

theorem judgeAcquiring_judgedFrom (s : State) (g : GroupId) (side : Side) (good : Bool) : (s.judgeAcquiring g side good).JudgedFrom s g := by
  cases good with
  | false =>
    refine judgedFrom_of_groups (state := (s.group g).state) (count := 0) (goodLeft := false) ?_
    rw [judgeAcquiring_bad, setGroup_groups]
  | true =>
    cases side with
    | left =>
      refine judgedFrom_of_groups (state := (s.group g).state) (count := (s.group g).count) (goodLeft := true) ?_
      rw [judgeAcquiring_left, setGroup_groups]
    | right =>
      cases pair : (s.group g).goodLeft with
      | false =>
        rw [judgeAcquiring_unpaired pair]
        exact judgedFrom_refl s g
      | true =>
        rcases Nat.eq_zero_or_pos (s.group g).count with first | second
        · refine judgedFrom_of_groups (state := (s.group g).state) (count := 1) (goodLeft := false) ?_
          rw [judgeAcquiring_first pair first, setGroup_groups]
        · refine judgedFrom_of_groups (state := .locked) (count := 0) (goodLeft := false) ?_
          rw [judgeAcquiring_locks pair second, enterLocked_groups, setGroup_groups, setGroup_group_self, PerLetter.set_set]

/-- The record of the group when a half-frame has begun after the judgement of the one before. -/
theorem State.JudgedFrom.group (k : u.JudgedFrom s g) (side : Side) : (u.beginHalf g side).group g = { s.group g with
    state := (u.group g).state, count := (u.group g).count, goodLeft := (u.group g).goodLeft
    half := some { side := side, length := 0 } } := by
  have own : u.group g = { s.group g with
      state := (u.group g).state, count := (u.group g).count, goodLeft := (u.group g).goodLeft } :=
    (group_of_set k.groups g).trans (if_pos rfl)
  have begun := (group_of_set (beginHalf_groups u g side) g).trans (if_pos rfl)
  rw [begun]
  exact congrArg (fun G : ClockGroup => { G with half := some { side := side, length := 0 } }) own

/-- What every edge in ACQUIRING has in common (R4, R15, R25). -/
theorem State.JudgedFrom.begins (k : u.JudgedFrom s g) (side : Side) : ∃ t, t = u.beginHalf g side ∧
    t = { s with lane := { t.lane with quads := s.lane.quads, joinedDriven := s.lane.joinedDriven }, word := t.word, link := t.link } ∧
    t.word = { s.word with capture := t.word.capture, outSlot := t.word.outSlot, lastWord := t.word.lastWord,
                           firstFrame := t.word.firstFrame } ∧
    s.BeginsHalf g side t ∧
    t.lane.groups = s.lane.groups.set g { s.group g with
      state := (t.group g).state, count := (t.group g).count, goodLeft := (t.group g).goodLeft
      half := some { side := side, length := 0 } } ∧
    (t.group g).half = some { side := side, length := 0 } ∧
    (t.group g).counter = (s.group g).counter ∧ (t.group g).mark = (s.group g).mark ∧
    (t.group g).markOut = (s.group g).markOut ∧ (t.group g).lossTimer = (s.group g).lossTimer ∧
    (∀ h, h ≠ g → t.group h = s.group h) ∧ t.word.inSlot = s.word.inSlot ∧
    (t.group g).state = (u.group g).state ∧ (t.group g).count = (u.group g).count ∧ (t.group g).goodLeft = (u.group g).goodLeft ∧
    t.link = u.link ∧ t.word.outSlot = u.word.outSlot ∧ t.word.lastWord = u.word.lastWord ∧ t.word.firstFrame = u.word.firstFrame := by
  have group := k.group side
  have begins := beginHalf_begins k.quads k.capture k.joinedCapture g side
  have groups : (u.beginHalf g side).lane.groups = s.lane.groups.set g { s.group g with
      state := ((u.beginHalf g side).group g).state, count := ((u.beginHalf g side).group g).count
      goodLeft := ((u.beginHalf g side).group g).goodLeft, half := some { side := side, length := 0 } } := by
    rw [group, beginHalf_groups, k.groups, PerLetter.set_set, (group_of_set k.groups g).trans (if_pos rfl)]
  have others (o : GroupId) (other : o ≠ g) : (u.beginHalf g side).group o = s.group o := by
    rw [group_of_set groups o, if_neg other]
  have kept : (u.beginHalf g side).pending = s.pending ∧ (u.beginHalf g side).resetHeld = s.resetHeld ∧
      (u.beginHalf g side).straps = s.straps ∧ (u.beginHalf g side).lane.quads = s.lane.quads ∧
      (u.beginHalf g side).lane.joinedDriven = s.lane.joinedDriven ∧ (u.beginHalf g side).mix = s.mix ∧
      (u.beginHalf g side).cues = s.cues ∧ (u.beginHalf g side).mem = s.mem ∧ (u.beginHalf g side).faults = s.faults ∧
      (u.beginHalf g side).pins = s.pins ∧ (u.beginHalf g side).free = s.free := by
    simp [k.pending, k.resetHeld, k.straps, k.quads, k.joinedDriven, k.mix, k.cues, k.mem, k.faults, k.pins, k.free]
  have keptWord : (u.beginHalf g side).word.inSlot = s.word.inSlot ∧ (u.beginHalf g side).word.settled = s.word.settled ∧
      (u.beginHalf g side).word.previous = s.word.previous := by
    simp [k.inSlot, k.settled, k.previous]
  have judged : (u.beginHalf g side).link = u.link ∧ (u.beginHalf g side).word.outSlot = u.word.outSlot ∧
      (u.beginHalf g side).word.lastWord = u.word.lastWord ∧ (u.beginHalf g side).word.firstFrame = u.word.firstFrame := by
    simp
  generalize u.beginHalf g side = t at *
  obtain ⟨pending, resetHeld, straps, quads, driven, mix, cues, mem, faults, pins, free⟩ := kept
  obtain ⟨inSlot, settled, previous⟩ := keptWord
  have lane : t.lane = { t.lane with quads := s.lane.quads, joinedDriven := s.lane.joinedDriven } :=
    LaneInterface.eq_of_fields quads rfl rfl driven
  have whole : t = { s with
      lane := { t.lane with quads := s.lane.quads, joinedDriven := s.lane.joinedDriven }, word := t.word, link := t.link } :=
    State.eq_of_fields pending resetHeld straps lane rfl mix cues mem rfl faults pins free
  have word : t.word = { s.word with
      capture := t.word.capture, outSlot := t.word.outSlot, lastWord := t.word.lastWord, firstFrame := t.word.firstFrame } :=
    WordPath.eq_of_fields rfl inSlot rfl rfl settled previous rfl
  exact ⟨t, rfl, whole, word, begins, groups, by rw [group], by rw [group],
    by rw [group], by rw [group], by rw [group], others, inSlot,
    by rw [group], by rw [group], by rw [group], judged⟩

/-! ### An edge in ACQUIRING (R15) -/

theorem edge_acquiring_first (started : (s.quad g).startedPlan = some plan) (acquiring : (s.group g).state = .acquiring)
    (none_ : (s.group g).half = none) (high : Bool) (length : Nat) :
    exec (.wordSelectEdge g high length) s = .next (s.beginHalf g (plan.polarity.side high)) := by
  rw [exec_wordSelectEdge, execWordSelectEdge, started]
  simp only [acquiring, none_]

theorem edge_acquiring (started : (s.quad g).startedPlan = some plan) (acquiring : (s.group g).state = .acquiring)
    (half : (s.group g).half = some h) (other : h.side ≠ plan.polarity.side high) (enough : h.length ≤ length) :
    exec (.wordSelectEdge g high length) s = .next
      ((s.judgeAcquiring g h.side (decide (length = plan.halfLength))).beginHalf g (plan.polarity.side high)) := by
  rw [exec_wordSelectEdge, execWordSelectEdge, started]
  simp only [acquiring, half]
  rw [if_pos (edgePossible_iff.mpr ⟨other.symm, enough⟩)]

theorem enterLocked_outSlot (s : State) (g : GroupId) (c : Channel) : (s.enterLocked g).word.outSlot[c] =
    if s.isOutputOf g c = true then ⟨0, false⟩ else s.word.outSlot[c] := fillWhere_get _ _ _ c

theorem enterLocked_lastWord (s : State) (g : GroupId) (c : Channel) : (s.enterLocked g).word.lastWord[c] =
    if s.isOutputOf g c = true then 0 else s.word.lastWord[c] := fillWhere_get _ _ _ c

theorem enterLocked_firstFrame (s : State) (g : GroupId) :
    (s.enterLocked g).word.firstFrame = s.word.firstFrame.set g true := by
  unfold State.enterLocked
  simp only [occur_word, setGroup_word]
  rfl

theorem enterLocked_link (s : State) (g : GroupId) : (s.enterLocked g).link = s.link.occur .lock .live := by
  unfold State.enterLocked
  simp only [occur_link, setGroup_link]
  rfl

theorem setGroup_self (s : State) (g : GroupId) : s.setGroup g (s.group g) = s := by
  simp [State.setGroup, State.group, PerLetter.set_get]

/-- The judgement that does not lock changes the count and the good left half of the group alone (R15). -/
theorem judgeAcquiring_stays (side : Side) (good : Bool)
    (short : ¬(side = .right ∧ good = true ∧ (s.group g).goodLeft = true ∧ 1 ≤ (s.group g).count)) :
    s.judgeAcquiring g side good = s.setGroup g { s.group g with
      count := if good = false then 0 else if side = .right ∧ (s.group g).goodLeft = true then (s.group g).count + 1
        else (s.group g).count
      goodLeft := good && decide (side = .left) } := by
  cases good with
  | false => simp [judgeAcquiring_bad]
  | true =>
    cases side with
    | left => simp [judgeAcquiring_left]
    | right =>
      cases pair : (s.group g).goodLeft with
      | false =>
        rw [judgeAcquiring_unpaired pair]
        refine (setGroup_self s g).symm.trans (congrArg (s.setGroup g) ?_)
        generalize s.group g = G at pair
        obtain ⟨⟩ := G
        simp_all
      | true =>
        have first : (s.group g).count = 0 := by
          have notSecond : ¬ 1 ≤ (s.group g).count := fun h => short ⟨rfl, rfl, pair, h⟩
          omega
        simp [judgeAcquiring_first pair first, first]

/-- Settles O24: the first edge of an acquisition, the frame that locks, and every other half-frame. -/
theorem acquisitionCountsGoodFrames : Obligations.AcquisitionCountsGoodFrames := by
  intro s g high length plan started acquiring possible
  cases half : (s.group g).half with
  | none =>
    obtain ⟨t, ht, whole, word, begins, groups, begun, counter, mark, markOut, timer, others, inSlot,
      state, count, goodLeft, link, outSlot, lastWord, firstFrame⟩ := (judgedFrom_refl s g).begins (plan.polarity.side high)
    refine ⟨t, (edge_acquiring_first started acquiring half high length).trans (congrArg Host.Outcome.next ht.symm), whole, word, begins,
      groups, begun, counter, mark, markOut, timer, others, inSlot, by simp, fun _ => ?_⟩
    exact ⟨state.trans acquiring, link, outSlot, lastWord, firstFrame, fun _ => ⟨count, goodLeft⟩, by simp⟩
  | some h =>
    obtain ⟨other, enough⟩ := possible h half
    obtain ⟨t, ht, whole, word, begins, groups, begun, counter, mark, markOut, timer, others, inSlot,
      state, count, goodLeft, link, outSlot, lastWord, firstFrame⟩ :=
      (judgeAcquiring_judgedFrom s g h.side (decide (length = plan.halfLength))).begins (plan.polarity.side high)
    refine ⟨t, (edge_acquiring started acquiring half other enough).trans (congrArg Host.Outcome.next ht.symm), whole, word, begins,
      groups, begun, counter, mark, markOut, timer, others, inSlot, ?locks, ?stays⟩
    case locks =>
      rintro _ ⟨⟩ right good pair second
      rw [right, decide_eq_true good, judgeAcquiring_locks pair second] at state count goodLeft link outSlot lastWord firstFrame
      have group := (group_of_set (enterLocked_groups (s.setGroup g { s.group g with goodLeft := false }) g) g).trans (if_pos rfl)
      have first : t.word.firstFrame = s.word.firstFrame.set g true := firstFrame
      refine ⟨by rw [state, group], by rw [count, group], by rw [goodLeft, group, setGroup_group_self], first, ?_, link, ?_, ?_⟩
      · rw [first, PerLetter.get_set_self]
      · intro c out
        rw [outSlot, lastWord, enterLocked_outSlot, enterLocked_lastWord]
        exact ⟨if_pos out, if_pos out⟩
      · intro c out
        have notOut : ¬ s.isOutputOf g c = true := by simp [out]
        rw [outSlot, lastWord, enterLocked_outSlot, enterLocked_lastWord]
        exact ⟨if_neg notOut, if_neg notOut⟩
    case stays =>
      intro short
      rw [judgeAcquiring_stays h.side _ fun ⟨right, good, pair, second⟩ =>
        short h rfl ⟨right, of_decide_eq_true good, pair, second⟩] at state count goodLeft link outSlot lastWord firstFrame
      rw [setGroup_group_self] at state count goodLeft
      refine ⟨state.trans acquiring, link, outSlot, lastWord, firstFrame, by simp, ?_⟩
      rintro _ ⟨⟩
      rw [count, goodLeft]
      refine ⟨fun bad => by simp [bad], fun good left => by simp [good, left], fun good right pair => by simp [good, right, pair],
        fun good right odd => by simp [good, right, odd]⟩

end Sys2Proof.Machine
end

section
/-! PROOFS. A frame arrival at the edge that ends a good frame in LOCKED (R16, R22, R28, R63, R78). -/

namespace Sys2Proof.Machine

variable {s t : State} {g : GroupId}

/-! ### What a pass begins with (R28, R63) -/

theorem frameSamples_congr (quads : t.lane.quads = s.lane.quads) (joined : t.lane.joinedCapture = s.lane.joinedCapture)
    (inSlot : t.word.inSlot = s.word.inSlot) (g : GroupId) : t.frameSamples g = s.frameSamples g := by
  have record : t.inRecord g = s.inRecord g := by
    funext c
    rw [State.inRecord, isInputOf_of_quads quads, joined]
    rfl
  rw [State.frameSamples, record, inSlot]
  rfl

theorem busSet_congr (buses : t.mix.buses = s.mix.buses) (g : GroupId) : t.busSet g = s.busSet g := by
  have bus (b : BusId) : t.bus b = s.bus b := by rw [State.bus, buses]; rfl
  simp only [State.busSet, bus]

theorem busSet_map_bus (s : State) (g : GroupId) :
    (s.busSet g).map PassBus.bus = allBuses.filter fun b => decide ((s.bus b).group = some g) := by
  simp [State.busSet, Function.comp_def]

theorem busSet_fresh {i : PassBus} (h : i ∈ s.busSet g) : i.rounding = (s.bus i.bus).rounding ∧ i.overflow = (s.bus i.bus).overflow ∧
    i.terms = [] ∧ i.progress = .waiting := by
  obtain ⟨b, _, rfl⟩ := List.mem_map.mp h
  exact ⟨rfl, rfl, rfl, rfl⟩

theorem passArrival_idle (idle : s.pass g = none) (n : FrameNo) : (s.passArrival g n).faults = s.faults ∧
    (s.passArrival g n).link = s.link := by
  simp [State.passArrival, idle]

theorem passArrival_busy {p : Pass} (busy : s.pass g = some p) (n : FrameNo) :
    s.passArrival g n = s.pushFault { FaultRecord.of .latePass g n with address := p.outstanding.head?.map Prod.fst } := by
  simp [State.passArrival, busy]

/-! ### The arrival (R16) -/

theorem compareMark_link (s : State) (g : GroupId) : (s.compareMark g).link =
    if (s.group g).counter = (s.group g).mark then s.link.occur .mark (.mark (groupBit g)) else s.link := by
  unfold State.compareMark
  dsimp only
  split
  · rfl
  · rfl

theorem startAtEdge_group (s : State) (g : GroupId) (d : Bool) (o : GroupId) : (s.startAtEdge g d).group o = s.group o :=
  group_of_groups (by simp) o

/-- The state in which the frame record of an arrival goes to the mix engine: the frame start of the same edge is made, the counter has advanced and the mark is compared. -/
def State.arrivalCounted (s : State) (g : GroupId) (d : Bool) : State :=
  ((s.startAtEdge g d).setGroup g { s.group g with
    counter := (s.group g).counter + 1, goodLeft := false, startMade := false, startDue := d && !(s.group g).startMade }).compareMark g

theorem frameArrival_eq (s : State) (g : GroupId) (d : Bool) :
    s.frameArrival g d = (s.arrivalCounted g d).passArrival g ((s.group g).counter + 1) := by
  unfold State.frameArrival
  simp only [startAtEdge_group]
  rfl

theorem arrivalCounted_word (s : State) (g : GroupId) (d : Bool) : (s.arrivalCounted g d).word = (s.startAtEdge g d).word := by
  simp [State.arrivalCounted]

theorem arrivalCounted_joinedDriven (s : State) (g : GroupId) (d : Bool) :
    (s.arrivalCounted g d).lane.joinedDriven = (s.startAtEdge g d).lane.joinedDriven := by
  simp [State.arrivalCounted]

theorem arrivalCounted_faults (s : State) (g : GroupId) (d : Bool) : (s.arrivalCounted g d).faults = (s.startAtEdge g d).faults := by
  simp [State.arrivalCounted]

theorem arrivalCounted_mix (s : State) (g : GroupId) (d : Bool) : (s.arrivalCounted g d).mix = s.mix := by
  simp [State.arrivalCounted]

theorem arrivalCounted_link (s : State) (g : GroupId) (d : Bool) : (s.arrivalCounted g d).link =
    if (s.group g).counter + 1 = (s.group g).mark then (s.startAtEdge g d).link.occur .mark (.mark (groupBit g))
    else (s.startAtEdge g d).link := by
  simp only [State.arrivalCounted, compareMark_link, setGroup_group_self, setGroup_link]

theorem arrivalCounted_frameSamples (s : State) (g : GroupId) (d : Bool) : (s.arrivalCounted g d).frameSamples g = s.frameSamples g :=
  frameSamples_congr (by simp [State.arrivalCounted]) (by simp [State.arrivalCounted]) (by simp [State.arrivalCounted]) g

/-- The passes after an arrival: a pass begins when the context is IDLE, and otherwise none changes (R63, R78). -/
theorem frameArrival_pass (s : State) (g : GroupId) (d : Bool) (o : GroupId) : (s.frameArrival g d).pass o =
    if o = g ∧ s.pass g = none then some {
      frame := (s.group g).counter + 1, samples := s.frameSamples g, buses := s.busSet g, outstanding := [], leftLocked := false
      stage := .cueStart, wait := none } else s.pass o := by
  have pass (o : GroupId) : (s.arrivalCounted g d).pass o = s.pass o :=
    pass_of_passes (congrArg MixEngine.passes (arrivalCounted_mix s g d)) o
  rw [frameArrival_eq, passArrival_pass, pass g, pass o, arrivalCounted_frameSamples,
    busSet_congr (congrArg MixEngine.buses (arrivalCounted_mix s g d))]

theorem frameArrival_idle (idle : s.pass g = none) (d : Bool) : (s.frameArrival g d).faults = (s.startAtEdge g d).faults ∧
    (s.frameArrival g d).link = (s.arrivalCounted g d).link := by
  have idle' : (s.arrivalCounted g d).pass g = none :=
    (pass_of_passes (congrArg MixEngine.passes (arrivalCounted_mix s g d)) g).trans idle
  obtain ⟨faults, link⟩ := passArrival_idle idle' ((s.group g).counter + 1)
  rw [frameArrival_eq, faults, link, arrivalCounted_faults]
  exact ⟨rfl, rfl⟩

theorem pushFault_faults_congr (faults : t.faults = s.faults) (f : FaultRecord) : (t.pushFault f).faults = (s.pushFault f).faults := by
  rw [State.pushFault, State.pushFault]
  simp only [occur_faults, faults]

/-- An arrival that finds the group's pass in flight is a late pass (R78). -/
theorem frameArrival_busy {p : Pass} (busy : s.pass g = some p) (d : Bool) :
    (s.frameArrival g d).faults = ((s.startAtEdge g d).pushFault
      { FaultRecord.of .latePass g ((s.group g).counter + 1) with address := p.outstanding.head?.map Prod.fst }).faults ∧
    (s.frameArrival g d).link = (s.arrivalCounted g d).link.occur .fault .live := by
  have busy' : (s.arrivalCounted g d).pass g = some p :=
    (pass_of_passes (congrArg MixEngine.passes (arrivalCounted_mix s g d)) g).trans busy
  rw [frameArrival_eq, passArrival_busy busy']
  exact ⟨pushFault_faults_congr (arrivalCounted_faults s g d) _, rfl⟩

theorem frameArrival_word (s : State) (g : GroupId) (d : Bool) : (s.frameArrival g d).word = (s.startAtEdge g d).word := by
  rw [frameArrival_eq]
  simp only [passArrival_frame, arrivalCounted_word]

theorem frameArrival_joinedDriven (s : State) (g : GroupId) (d : Bool) :
    (s.frameArrival g d).lane.joinedDriven = (s.startAtEdge g d).lane.joinedDriven := by
  rw [frameArrival_eq]
  simp only [passArrival_frame, arrivalCounted_joinedDriven]

/-! ### The edge that ends a good frame (R16, R28, R63) -/

theorem edge_arrival {plan : Plan} {high : Bool} {h : HalfFrame} (started : (s.quad g).startedPlan = some plan)
    (locked : (s.group g).state = .locked) (half : (s.group g).half = some h) (right : h.side = .right)
    (pair : (s.group g).goodLeft = true) (side : plan.polarity.side high = .left) (enough : h.length ≤ plan.halfLength) :
    exec (.wordSelectEdge g high plan.halfLength) s = .next ((s.frameArrival g plan.firstBitDelay).beginHalf g .left) := by
  have other : h.side ≠ plan.polarity.side high := by rw [right, side]; exact Side.noConfusion
  have judged : s.judgeLocked g h.side plan.firstBitDelay = s.frameArrival g plan.firstBitDelay := by
    rw [right]
    exact if_pos pair
  rw [edge_locked started locked half other enough, if_pos rfl, judged, side]

/-- What the edge of an arrival may touch. -/
theorem arrivalEdge_eq (d : Bool) (ht : t = (s.frameArrival g d).beginHalf g .left) : t = { s with
    lane := { t.lane with quads := s.lane.quads, joinedDriven := (s.startAtEdge g d).lane.joinedDriven }
    word := { (s.startAtEdge g d).word with capture := t.word.capture }
    mix := { s.mix with passes := t.mix.passes }, link := t.link, faults := t.faults } := by
  have fields : t.pending = s.pending ∧ t.resetHeld = s.resetHeld ∧ t.straps = s.straps ∧ t.lane.quads = s.lane.quads ∧
      t.lane.joinedDriven = (s.startAtEdge g d).lane.joinedDriven ∧ t.cues = s.cues ∧ t.mem = s.mem ∧ t.pins = s.pins ∧
      t.free = s.free := by
    rw [ht]
    simp [frameArrival_joinedDriven]
  have words : t.word.inSlot = (s.startAtEdge g d).word.inSlot ∧ t.word.outSlot = (s.startAtEdge g d).word.outSlot ∧
      t.word.lastWord = (s.startAtEdge g d).word.lastWord ∧ t.word.settled = (s.startAtEdge g d).word.settled ∧
      t.word.previous = (s.startAtEdge g d).word.previous ∧ t.word.firstFrame = (s.startAtEdge g d).word.firstFrame := by
    rw [ht]
    simp [frameArrival_word]
  have mixes : t.mix.buses = s.mix.buses ∧ t.mix.xp = s.mix.xp ∧ t.mix.routes = s.mix.routes := by
    rw [ht]
    simp
  clear ht
  obtain ⟨pending, resetHeld, straps, quads, driven, cues, mem, pins, free⟩ := fields
  obtain ⟨inSlot, outSlot, lastWord, settled, previous, firstFrame⟩ := words
  obtain ⟨buses, xp, routes⟩ := mixes
  have lane : t.lane = { t.lane with quads := s.lane.quads, joinedDriven := (s.startAtEdge g d).lane.joinedDriven } :=
    LaneInterface.eq_of_fields quads rfl rfl driven
  have word : t.word = { (s.startAtEdge g d).word with capture := t.word.capture } :=
    WordPath.eq_of_fields rfl inSlot outSlot lastWord settled previous firstFrame
  have mix : t.mix = { s.mix with passes := t.mix.passes } := MixEngine.eq_of_fields buses xp routes rfl
  exact State.eq_of_fields pending resetHeld straps lane word mix cues mem rfl rfl pins free

/-- Settles O25: the edge is the arrival and the left half-frame that begins, and each part of the state is one of the two's. -/
theorem frameArrivalBeginsAPass : Obligations.FrameArrivalBeginsAPass := by
  intro s g high plan h started locked half right pair side enough n u
  have edge : u = s.startAtEdge g plan.firstBitDelay := rfl
  have begins := beginHalf_begins (u := s.frameArrival g plan.firstBitDelay) (s := s) (by simp) (by simp) (by simp) g .left
  have groups : ((s.frameArrival g plan.firstBitDelay).beginHalf g .left).lane.groups = s.lane.groups.set g { s.group g with
      counter := n, goodLeft := false, startMade := false, startDue := plan.firstBitDelay && !(s.group g).startMade
      half := some { side := .left, length := 0 }
      markOut := if n = (s.group g).mark then true
        else if (s.group g).markMode = .pulse then false else (s.group g).markOut } := by
    rw [beginHalf_groups, frameArrival_groups, PerLetter.set_set, group_of_set (frameArrival_groups s g _), if_pos rfl]
  have pass (o : GroupId) : ((s.frameArrival g plan.firstBitDelay).beginHalf g .left).pass o =
      (s.frameArrival g plan.firstBitDelay).pass o := pass_of_passes (by simp) o
  have faults : ((s.frameArrival g plan.firstBitDelay).beginHalf g .left).faults = (s.frameArrival g plan.firstBitDelay).faults := by
    simp
  have link : ((s.frameArrival g plan.firstBitDelay).beginHalf g .left).link = (s.frameArrival g plan.firstBitDelay).link := by
    simp
  obtain ⟨t, ht⟩ : ∃ t, t = (s.frameArrival g plan.firstBitDelay).beginHalf g .left := ⟨_, rfl⟩
  have whole := arrivalEdge_eq plan.firstBitDelay ht
  refine ⟨t, (edge_arrival started locked half right pair side enough).trans (congrArg Host.Outcome.next ht.symm), ?_⟩
  rw [← ht] at begins groups pass faults link
  clear ht
  clear_value u
  subst edge
  have own : t.group g = _ := (group_of_set groups g).trans (if_pos rfl)
  refine ⟨whole, begins, groups, ?_⟩
  rw [own]
  refine ⟨locked, rfl, rfl, rfl, rfl, rfl, rfl, rfl, fun o other => ⟨?_, ?_⟩, fun idle => ?_, fun p busy => ?_⟩
  · rw [group_of_set groups o, if_neg other]
  · rw [pass, frameArrival_pass, if_neg fun both => other both.1]
  · obtain ⟨faults', link'⟩ := frameArrival_idle idle plan.firstBitDelay
    refine ⟨faults.trans faults', (link.trans link').trans ?_, _, (pass g).trans ((frameArrival_pass s g _ g).trans (if_pos ⟨rfl, idle⟩)),
      rfl, rfl, rfl, rfl, rfl, rfl, busSet_map_bus s g, fun i hi => busSet_fresh hi⟩
    rw [arrivalCounted_link]
    cases g <;> rfl
  · obtain ⟨faults', link'⟩ := frameArrival_busy busy plan.firstBitDelay
    refine ⟨(pass g).trans ((frameArrival_pass s g _ g).trans ?_), (link.trans link').trans ?_, faults.trans faults'⟩
    · rw [if_neg (by simp [busy]), busy]
    · rw [arrivalCounted_link]
      cases g <;> rfl

end Sys2Proof.Machine
end

section
/-! PROOFS. FRAME_START and what a frame start in LOCKED settles (R31, R32, R34, R35). -/

namespace Sys2Proof.Machine

variable {s t : State} {g : GroupId} {c : Channel}

/-! ### What a frame start settles (R31, R32, R34) -/

theorem settle_settled (s : State) (g : GroupId) (c : Channel) :
    (s.settle g).word.settled[c] = if s.isOutputOf g c then s.settledSample c else s.word.settled[c] := by
  simp [State.settle]

theorem settle_lastWord (s : State) (g : GroupId) (c : Channel) :
    (s.settle g).word.lastWord[c] = if s.isOutputOf g c then s.settledSample c else s.word.lastWord[c] := by
  simp [State.settle]

theorem settle_previous (s : State) (g : GroupId) (c : Channel) :
    (s.settle g).word.previous[c] = if s.isOutputOf g c then s.word.settled[c] else s.word.previous[c] := by
  simp [State.settle, State.replacedSamples]

theorem settle_outSlot (s : State) (g : GroupId) (c : Channel) :
    (s.settle g).word.outSlot[c] = if s.isOutputOf g c then s.takenSlot c else s.word.outSlot[c] := by
  simp [State.settle]

theorem settleFirst_settled (s : State) (g : GroupId) (c : Channel) :
    (s.settleFirst g).word.settled[c] = if s.isOutputOf g c then 0 else s.word.settled[c] := fillWhere_get _ _ _ c

theorem settleFirst_lastWord (s : State) (g : GroupId) (c : Channel) :
    (s.settleFirst g).word.lastWord[c] = if s.isOutputOf g c then 0 else s.word.lastWord[c] := fillWhere_get _ _ _ c

theorem settleFirst_previous (s : State) (g : GroupId) (c : Channel) :
    (s.settleFirst g).word.previous[c] = if s.isOutputOf g c then s.word.settled[c] else s.word.previous[c] := by
  simp [State.settleFirst, State.replacedSamples]

theorem settleFirst_outSlot (s : State) (g : GroupId) (c : Channel) : (s.settleFirst g).word.outSlot[c] =
    if s.isOutputOf g c then { s.word.outSlot[c] with fresh := false } else s.word.outSlot[c] := by
  simp [State.settleFirst]

theorem settleFirst_firstFrame (s : State) (g : GroupId) : (s.settleFirst g).word.firstFrame = s.word.firstFrame.set g false := rfl

theorem settledSample_owned {b : BusId} (owned : s.route c = .owned b) :
    s.settledSample c = if s.word.outSlot[c].fresh then s.word.outSlot[c].value else s.word.lastWord[c] := by
  simp [State.settledSample, owned, Route.owner]

theorem settledSample_unowned (unowned : (s.route c).owner = none) : s.settledSample c = 0 := by
  simp [State.settledSample, unowned]

theorem takenSlot_unowned (unowned : (s.route c).owner = none) : s.takenSlot c = OutSlot.empty := by
  simp [State.takenSlot, unowned]

theorem takenSlot_fresh (s : State) (c : Channel) : (s.takenSlot c).fresh = false := by
  unfold State.takenSlot
  cases (s.route c).owner with
  | none => rfl
  | some b => rfl

/-! ### A frame start in LOCKED (R31 to R34) -/

theorem frameStartLocked_first (first : s.word.firstFrame.get g = true) (n : FrameNo) :
    s.frameStartLocked g n = (s.settleFirst g).driveJoined g := by
  simp [State.frameStartLocked, first]

theorem frameStartLocked_fresh (later : s.word.firstFrame.get g = false) (n : FrameNo)
    (all : allChannels.find? (fun c => s.isOutputOf g c && s.underruns c) = none) :
    s.frameStartLocked g n = (s.settle g).driveJoined g := by
  simp [State.frameStartLocked, later, all]

theorem frameStartLocked_repeats (later : s.word.firstFrame.get g = false) (n : FrameNo)
    (one : allChannels.find? (fun c => s.isOutputOf g c && s.underruns c) = some c) :
    s.frameStartLocked g n = ((s.settle g).driveJoined g).pushFault { FaultRecord.of .underrun g n with channel := some c } := by
  simp [State.frameStartLocked, later, one]

theorem frameStartLocked_word (s : State) (g : GroupId) (n : FrameNo) : (s.frameStartLocked g n).word =
    if s.word.firstFrame.get g then (s.settleFirst g).word else (s.settle g).word := by
  cases first : s.word.firstFrame.get g with
  | true => simp [frameStartLocked_first first]
  | false =>
    cases find : allChannels.find? (fun c => s.isOutputOf g c && s.underruns c) with
    | none => simp [frameStartLocked_fresh first n find]
    | some c => simp [frameStartLocked_repeats first n find]

/-- The first channel with a property, in ascending order (R31). -/
theorem find_allChannels {p : Channel → Bool} (here : p c = true) (before : ∀ d, d < c → p d = false) :
    allChannels.find? p = some c := by
  rw [List.find?_eq_some_iff_getElem]
  refine ⟨here, c.val, by simp [allChannels], by simp [allChannels], fun j hj => ?_⟩
  simp [allChannels, before ⟨j, by omega⟩ hj]

theorem driveJoined_joinedDriven (quads : t.lane.quads = s.lane.quads) (driven : t.lane.joinedDriven = s.lane.joinedDriven)
    (g : GroupId) : (t.driveJoined g).lane.joinedDriven = (s.lane.joinedDriven || (decide (g = .A) && s.bJoined)) := by
  rw [State.driveJoined, ← bJoined_of_quads quads, ← driven]

theorem frameStartLocked_joinedDriven (s : State) (g : GroupId) (n : FrameNo) :
    (s.frameStartLocked g n).lane.joinedDriven = (s.lane.joinedDriven || (decide (g = .A) && s.bJoined)) := by
  cases first : s.word.firstFrame.get g with
  | true =>
    rw [frameStartLocked_first first]
    exact driveJoined_joinedDriven (by simp) (by simp) g
  | false =>
    cases find : allChannels.find? (fun c => s.isOutputOf g c && s.underruns c) with
    | none =>
      rw [frameStartLocked_fresh first n find]
      exact driveJoined_joinedDriven (by simp) (by simp) g
    | some c =>
      rw [frameStartLocked_repeats first n find, pushFault_lane]
      exact driveJoined_joinedDriven (by simp) (by simp) g

/-- What a frame start in LOCKED may touch. -/
theorem frameStartLocked_eq (n : FrameNo) (ht : t = s.frameStartLocked g n) : t = { s with
    lane := { s.lane with joinedDriven := s.lane.joinedDriven || (decide (g = .A) && s.bJoined) }
    word := { t.word with capture := s.word.capture, inSlot := s.word.inSlot }, link := t.link, faults := t.faults } := by
  have fields : t.pending = s.pending ∧ t.resetHeld = s.resetHeld ∧ t.straps = s.straps ∧ t.mix = s.mix ∧ t.cues = s.cues ∧
      t.mem = s.mem ∧ t.pins = s.pins ∧ t.free = s.free := by
    rw [ht]
    simp
  have lanes : t.lane.quads = s.lane.quads ∧ t.lane.groups = s.lane.groups ∧ t.lane.joinedCapture = s.lane.joinedCapture ∧
      t.lane.joinedDriven = (s.lane.joinedDriven || (decide (g = .A) && s.bJoined)) := by
    rw [ht]
    simp [frameStartLocked_joinedDriven]
  have words : t.word.capture = s.word.capture ∧ t.word.inSlot = s.word.inSlot := by
    rw [ht]
    simp
  clear ht
  obtain ⟨pending, resetHeld, straps, mix, cues, mem, pins, free⟩ := fields
  obtain ⟨quads, groups, joinedCapture, driven⟩ := lanes
  obtain ⟨capture, inSlot⟩ := words
  have lane : t.lane = { s.lane with joinedDriven := s.lane.joinedDriven || (decide (g = .A) && s.bJoined) } :=
    LaneInterface.eq_of_fields quads groups joinedCapture driven
  have word : t.word = { t.word with capture := s.word.capture, inSlot := s.word.inSlot } :=
    WordPath.eq_of_fields capture inSlot rfl rfl rfl rfl rfl
  exact State.eq_of_fields pending resetHeld straps lane word mix cues mem rfl rfl pins free

/-- The first frame start after lock transmits zero and repeats nothing (R34). -/
theorem frameStartLocked_faults_first (first : s.word.firstFrame.get g = true) (n : FrameNo) :
    (s.frameStartLocked g n).faults = s.faults ∧ (s.frameStartLocked g n).link = s.link := by
  simp [frameStartLocked_first first]

/-- A frame start that repeats no last word pushes nothing (R32). -/
theorem frameStartLocked_faults_fresh (later : s.word.firstFrame.get g = false) (n : FrameNo)
    (all : ∀ c, (s.isOutputOf g c && s.underruns c) = false) :
    (s.frameStartLocked g n).faults = s.faults ∧ (s.frameStartLocked g n).link = s.link := by
  have find : allChannels.find? (fun c => s.isOutputOf g c && s.underruns c) = none :=
    List.find?_eq_none.mpr fun c _ => by simp [all c]
  simp [frameStartLocked_fresh later n find]

/-- A frame start that repeats last words pushes one UNDERRUN, which names the first channel that repeats (R32). -/
theorem frameStartLocked_faults_repeats (later : s.word.firstFrame.get g = false) (n : FrameNo)
    (here : (s.isOutputOf g c && s.underruns c) = true) (before : ∀ d, d < c → (s.isOutputOf g d && s.underruns d) = false) :
    (s.frameStartLocked g n).faults = (s.pushFault { FaultRecord.of .underrun g n with channel := some c }).faults ∧
    (s.frameStartLocked g n).link = s.link.occur .fault .live := by
  rw [frameStartLocked_repeats later n (find_allChannels here before)]
  refine ⟨pushFault_faults_congr (by simp) _, ?_⟩
  rw [pushFault_link]
  simp only [driveJoined_frame, settle_frame]

/-! ### FRAME_START (R31, R35) -/

theorem exec_frameStart (s : State) (g : GroupId) : exec (.frameStart g) s = execFrameStart g s := rfl

theorem frameStart_unlocked (unlocked : (s.group g).state ≠ .locked) : exec (.frameStart g) s = .next s := by
  rw [exec_frameStart, execFrameStart]
  cases state : (s.group g).state with
  | locked => exact absurd state unlocked
  | off | acquiring | lost | standby => simp only [state]

section
variable {plan : Plan} (started : (s.quad g).startedPlan = some plan) (locked : (s.group g).state = .locked)
include started locked

theorem frameStart_due (due : (s.group g).startDue = true) : exec (.frameStart g) s =
    .next ((s.setGroup g { s.group g with startDue := false }).frameStartLocked g (s.group g).counter) := by
  rw [exec_frameStart, execFrameStart]
  simp only [locked, started, due, if_true]

theorem frameStart_idle (notDue : (s.group g).startDue = false) (idle : (s.group g).half = none) : exec (.frameStart g) s = .next s := by
  rw [exec_frameStart, execFrameStart]
  simp only [locked, started, notDue, idle, Bool.false_eq_true, if_false]

/-- FRAME_START in a half-frame, where none is due: it counts in the right half-frame after a good left one, once (R31). -/
theorem frameStart_half (notDue : (s.group g).startDue = false) {h : HalfFrame} (half : (s.group g).half = some h) :
    exec (.frameStart g) s = .next (
      if h.side = .right ∧ (s.group g).goodLeft = true ∧ (s.group g).startMade = false then
        if plan.firstBitDelay then s.setGroup g { s.group g with startMade := true }
        else (s.setGroup g { s.group g with startMade := true, half := some { h with length := plan.halfLength } }).frameStartLocked g
          ((s.group g).counter + 1)
      else s) := by
  rw [exec_frameStart, execFrameStart]
  simp only [locked, started, notDue, half, Bool.false_eq_true, if_false, Bool.not_eq_true]

end

/-- Settles O28: FRAME_START by the group's state and the half-frame in progress, and the frame start by the first-frame flag. -/
theorem frameStartSettlesTheOutputs : Obligations.FrameStartSettlesTheOutputs := by
  refine ⟨fun s g unlocked => frameStart_unlocked unlocked, fun s g plan started locked => ?event, fun s g n => ?settles⟩
  case event =>
    refine ⟨fun due => frameStart_due started locked due, fun h notDue half early => ?_, fun notDue late => ?_⟩
    · have made := frameStart_half started locked notDue half
      rw [if_pos early] at made
      refine ⟨fun noDelay => ?_, fun delayed => ?_⟩
      · rw [made, if_neg (by simp [noDelay]), early.1]
        rfl
      · rw [made, if_pos delayed]
        rfl
    · cases half : (s.group g).half with
      | none => exact frameStart_idle started locked notDue half
      | some h =>
        rw [frameStart_half started locked notDue half]
        exact congrArg Host.Outcome.next (if_neg (late h half))
  case settles =>
    intro t repeats
    have whole := frameStartLocked_eq (t := t) n rfl
    have word : t.word = if s.word.firstFrame.get g then (s.settleFirst g).word else (s.settle g).word := frameStartLocked_word s g n
    refine ⟨whole, fun o => ?flag, fun c other => ?other, fun c out => ?previous, fun first => ⟨?_, ?_, fun c out => ?first⟩,
      fun later => ⟨fun c out => ?later, fun all => frameStartLocked_faults_fresh later n fun c => ?_,
        fun c here before => frameStartLocked_faults_repeats later n ?_ fun d hd => ?_⟩⟩
    case flag =>
      rw [word]
      cases first : s.word.firstFrame.get g with
      | true =>
        rw [if_pos rfl, settleFirst_firstFrame]
        by_cases same : o = g
        · rw [if_pos same, same, PerLetter.get_set_self]
        · rw [if_neg same, PerLetter.get_set_ne _ _ same]
      | false =>
        rw [if_neg Bool.false_ne_true]
        by_cases same : o = g
        · simp [same, first]
        · simp [same]
    case other =>
      rw [word]
      cases s.word.firstFrame.get g with
      | true =>
        simp only [settleFirst_settled, settleFirst_lastWord, settleFirst_previous, settleFirst_outSlot, other, Bool.false_eq_true,
          if_true, if_false, and_self]
      | false =>
        simp only [settle_settled, settle_lastWord, settle_previous, settle_outSlot, other, Bool.false_eq_true, if_false, and_self]
    case previous =>
      rw [word]
      cases s.word.firstFrame.get g with
      | true => simp only [settleFirst_previous, out, if_true]
      | false => simp only [settle_previous, out, Bool.false_eq_true, if_true, if_false]
    case first =>
      rw [word, if_pos first]
      simp only [settleFirst_settled, settleFirst_lastWord, settleFirst_outSlot, out, if_true, and_self]
    case later =>
      rw [word, if_neg (by simp [later])]
      rw [settle_settled, settle_lastWord, settle_outSlot, if_pos out, if_pos out, if_pos out]
      refine ⟨takenSlot_fresh s c, fun b owned fresh => ?_, fun b owned stale => ?_, fun unowned => ?_⟩
      · simp only [settledSample_owned owned, fresh, if_true, and_self]
      · simp only [settledSample_owned owned, stale, Bool.false_eq_true, if_false, and_self]
      · simp only [settledSample_unowned unowned, takenSlot_unowned unowned, OutSlot.empty, and_self]
    · exact (frameStartLocked_faults_first first n).1
    · exact (frameStartLocked_faults_first first n).2
    · exact (Bool.and_assoc ..).symm.trans (all c)
    · exact (Bool.and_assoc ..).symm.trans here
    · exact (Bool.and_assoc ..).symm.trans (before d hd)

end Sys2Proof.Machine
end

section
/-! PROOFS. WORD_COMPLETE, and the conversions between line words and samples (R25, R27, R36). -/

namespace Sys2Proof.Machine

variable {s : State} {c : Channel} {plan : Plan} {p : LanePos} {l : LanePlan} {h : HalfFrame}

/-! ### Line words and samples (R27, R36) -/

theorem extractLsb_low (w : BitVec 32) (n : Nat) : w.extractLsb' 0 n = w.setWidth n := by
  apply BitVec.eq_of_toNat_eq
  simp

/-- The low bits of a vector dropped: the signed number is divided, toward minus infinity. -/
theorem toInt_extract_high {k n : Nat} (x : BitVec (k + (n + 1))) : (x.extractLsb' k (n + 1)).toInt = x.toInt / (2 ^ k : Nat) := by
  have bound : x.toNat / 2 ^ k < 2 ^ (n + 1) := by
    rw [Nat.div_lt_iff_lt_mul (Nat.two_pow_pos k), ← Nat.pow_add]
    exact lt_of_lt_of_eq x.isLt (congrArg _ (Nat.add_comm ..))
  have sign : 2 * (x.toNat / 2 ^ k) < 2 ^ (n + 1) ↔ 2 * x.toNat < 2 ^ (k + (n + 1)) := by
    have half : 2 ^ (k + (n + 1)) = 2 * (2 ^ n * 2 ^ k) := by
      rw [Nat.pow_add, Nat.pow_succ', Nat.mul_left_comm, Nat.mul_comm (2 ^ k)]
    rw [half, Nat.pow_succ', Nat.mul_lt_mul_left (by decide), Nat.mul_lt_mul_left (by decide), Nat.div_lt_iff_lt_mul (Nat.two_pow_pos k)]
  rw [BitVec.toInt_eq_toNat_cond, BitVec.toInt_eq_toNat_cond, BitVec.extractLsb'_toNat, Nat.shiftRight_eq_div_pow,
    Nat.mod_eq_of_lt bound]
  by_cases positive : 2 * x.toNat < 2 ^ (k + (n + 1))
  · rw [if_pos (sign.mpr positive), if_pos positive]
    norm_cast
  · rw [if_neg (fun q => positive (sign.mp q)), if_neg positive]
    push_cast
    have split : (2 : Int) ^ (k + (n + 1)) = 2 ^ (n + 1) * 2 ^ k := by
      rw [Int.pow_add, Int.mul_comm]
    rw [split, Int.sub_mul_ediv_right _ _ (Int.ne_of_gt (Int.pow_pos (by decide)))]

theorem lineBits_eq (len : WordLength) (w : BitVec 32) : lineBits len w = (w.setWidth len.bits).setWidth 32 := by
  cases len with
  | w16 => rw [lineBits, extractLsb_low]; rfl
  | w20 => rw [lineBits, extractLsb_low]; rfl
  | w24 => rw [lineBits, extractLsb_low]; rfl
  | w32 => simp [lineBits, WordLength.bits]

theorem sampleOfWord_w16 (w : BitVec 32) : (sampleOfWord .w16 w).toInt = (w.setWidth 16).toInt * 256 := by
  rw [sampleOfWord, extractLsb_low]
  exact BitVec.toInt_append_zero.trans (Int.mul_comm ..)

theorem sampleOfWord_w20 (w : BitVec 32) : (sampleOfWord .w20 w).toInt = (w.setWidth 20).toInt * 16 := by
  rw [sampleOfWord, extractLsb_low]
  exact BitVec.toInt_append_zero.trans (Int.mul_comm ..)

theorem sampleOfWord_w32 (w : BitVec 32) : (sampleOfWord .w32 w).toInt = w.toInt / 256 := toInt_extract_high (k := 8) (n := 23) w

theorem wordOfSample_w16 (x : Sample) : ((wordOfSample .w16 x).setWidth 16).toInt = x.toInt / 256 := by
  have low : (wordOfSample .w16 x).setWidth 16 = x.extractLsb' 8 16 := by
    rw [wordOfSample, BitVec.setWidth_setWidth_of_le _ (by decide), BitVec.setWidth_eq]
  rw [low]
  exact toInt_extract_high (k := 8) (n := 15) x

theorem wordOfSample_w20 (x : Sample) : ((wordOfSample .w20 x).setWidth 20).toInt = x.toInt / 16 := by
  have low : (wordOfSample .w20 x).setWidth 20 = x.extractLsb' 4 20 := by
    rw [wordOfSample, BitVec.setWidth_setWidth_of_le _ (by decide), BitVec.setWidth_eq]
  rw [low]
  exact toInt_extract_high (k := 4) (n := 19) x

theorem wordOfSample_w32 (x : Sample) : (wordOfSample .w32 x).toInt = x.toInt * 256 :=
  BitVec.toInt_append_zero.trans (Int.mul_comm ..)

theorem wordOfSample_sampleOfWord_w16 (w : BitVec 32) : wordOfSample .w16 (sampleOfWord .w16 w) = (w.setWidth 16).setWidth 32 := by
  have high (v : BitVec 16) : (v ++ (0 : BitVec 8)).extractLsb' 8 16 = v := by
    apply BitVec.eq_of_toNat_eq
    have bound := v.isLt
    rw [BitVec.extractLsb'_toNat, BitVec.toNat_append, show BitVec.toNat (0 : BitVec 8) = 0 from rfl, Nat.or_zero, Nat.shiftLeft_shiftRight, Nat.mod_eq_of_lt bound]
  rw [wordOfSample, sampleOfWord, extractLsb_low]
  exact congrArg _ (high _)

/-! ### WORD_COMPLETE (R10, R25, R27) -/

theorem exec_wordComplete (s : State) (c : Channel) (bits : BitVec 32) : exec (.wordComplete c bits) s = execWordComplete c bits s := rfl

theorem canComplete_iff : s.canComplete c l h = true ↔ l.direction = .input ∧
    ((s.group (s.groupOfChannel c)).state = .acquiring ∨ (s.group (s.groupOfChannel c)).state = .locked) ∧ h.side = channelSide c ∧
    (channelQuad c = s.groupOfChannel c ∨ s.lane.joinedCapture = true) ∧ s.word.capture[c].count = 0 := by
  simp only [State.canComplete, Bool.and_eq_true, Bool.or_eq_true, decide_eq_true_eq, and_assoc]

/-- The word of a lane that can complete is gathered, and its sample is the channel's. -/
theorem wordComplete_gathers (started : (s.quad (s.groupOfChannel c)).startedPlan = some plan) (lane : s.channelLane c = some (p, l))
    (half : (s.group (s.groupOfChannel c)).half = some h) (can : s.canComplete c l h = true) (bits : BitVec 32) :
    exec (.wordComplete c bits) s = .next { s with
      lane := { s.lane with groups := s.lane.groups.set (s.groupOfChannel c) { s.group (s.groupOfChannel c) with
        half := some { h with length := max h.length (wordEnd plan p l c) } } }
      word := { s.word with
        capture := s.word.capture.set c { count := l.wordLength.bits, bits := lineBits l.wordLength bits }
        inSlot := s.word.inSlot.set c (sampleOfWord l.wordLength bits) } } := by
  rw [exec_wordComplete, execWordComplete]
  simp only [started, lane, half, can, if_true]
  rfl

/-- WORD_COMPLETE has no effect where no word can complete. -/
theorem wordComplete_ignored (cannot : ∀ p l h, s.channelLane c = some (p, l) → (s.group (s.groupOfChannel c)).half = some h →
    s.canComplete c l h = false) (bits : BitVec 32) : exec (.wordComplete c bits) s = .next s := by
  rw [exec_wordComplete, execWordComplete]
  cases started : (s.quad (s.groupOfChannel c)).startedPlan with
  | none => simp only [started]
  | some plan =>
    cases lane : s.channelLane c with
    | none => simp only [started]
    | some at_ =>
      cases half : (s.group (s.groupOfChannel c)).half with
      | none => simp only [started, half]
      | some h => simp only [started, half, cannot at_.1 at_.2 h lane half, Bool.false_eq_true, if_false]

/-- Settles O29: a word that can complete, the cases in which none can, and the conversions one word length at a time. -/
theorem wordsAreCapturedAndConverted : Obligations.WordsAreCapturedAndConverted := by
  refine ⟨fun s c bits still => ?still, fun s c bits plan p l h => ?gathers, fun s c bits none_ => ?none_,
    fun w x => ⟨sampleOfWord_w16 w, sampleOfWord_w20 w, extractLsb_low w 24, sampleOfWord_w32 w, wordOfSample_w16 x,
      wordOfSample_w20 x, rfl, wordOfSample_w32 x, wordOfSample_sampleOfWord_w16 w⟩⟩
  case still =>
    refine wordComplete_ignored (fun p l h _ _ => ?_) bits
    refine Bool.eq_false_iff.mpr fun can => ?_
    obtain ⟨_, running, _⟩ := canComplete_iff.mp can
    obtain acquiring | locked := running
    · simp [acquiring] at still
    · simp [locked] at still
  case gathers =>
    intro g started lane input running half side joined fresh len stop
    have can := canComplete_iff.mpr ⟨input, running, side, joined, fresh⟩
    rw [wordComplete_gathers started lane half can, lineBits_eq]
    rfl
  case none_ =>
    refine wordComplete_ignored (fun p l h lane _ => ?_) bits
    refine Bool.eq_false_iff.mpr fun can => ?_
    obtain ⟨input, _, _, _, fresh⟩ := canComplete_iff.mp can
    obtain gathered | notInput := none_
    · exact gathered fresh
    · simp [State.isInput, lane, input] at notInput

end Sys2Proof.Machine
end

section
/-! PROOFS. The clear engine, the DRAM's accesses and the arbiter (R127, R133 to R138). -/

namespace Sys2Proof.Machine

variable {s t : State}

/-! ### The clear engine (R133, R134) -/

theorem exec_clearWrite (s : State) : exec .clearWrite s = execClearWrite s := rfl

theorem clearWrite_none (none_ : s.mem.clearing = []) : exec .clearWrite s = .next s := by
  rw [exec_clearWrite, execClearWrite, none_]

section
variable {b : BusId} {rest : List BusId} {l : Line} {k : Nat} (head : s.mem.clearing = b :: rest) (line : s.line b = some l)
  (clearing : l.state = .clearing k)
include head line clearing

/-- The head line's next write, if the write queue has two places left (R133). -/
theorem clearWrite_head : exec .clearWrite s = .next (if s.mem.writeQ.length + 2 ≤ Config.maxWrites then s.clearStep b l k else s) := by
  rw [exec_clearWrite, execClearWrite, head]
  simp only [line, clearing]

end

/-- A clear write that is not the last advances the clear position (R133). -/
theorem clearStep_more {l : Line} {k : Nat} (more : k + 1 < l.length) (b : BusId) : s.clearStep b l k =
    { s with mem := MemoryPort.arbitrate { s.mem with
      lines := s.mem.lines.set b (some { l with state := .clearing (k + 1) })
      writeQ := s.mem.writeQ ++ [{ address := l.base + k, value := 0, source := .clearEngine }] } } := by
  simp only [State.clearStep, Line.cleared, more, if_true]
  rfl

/-- The last clear write makes the line ACTIVE and raises LINE (R133). -/
theorem clearStep_last {l : Line} {k : Nat} (last : ¬ k + 1 < l.length) (b : BusId) : s.clearStep b l k =
    let m : MemoryPort := MemoryPort.arbitrate { s.mem with
      lines := s.mem.lines.set b (some { l with writeIndex := 0, state := .active })
      writeQ := s.mem.writeQ ++ [{ address := l.base + k, value := 0, source := .clearEngine }] }
    { s with mem := { m with clearing := m.clearing.filter fun c => decide (c ≠ b) }, link := s.link.occur .line (.line b) } := by
  simp only [State.clearStep, Line.cleared, last, if_false]
  rfl

/-- Settles O49: no line to clear, and the head line with room for its write or without. -/
theorem clearWriteFillsTheHeadLine : Obligations.ClearWriteFillsTheHeadLine := by
  refine ⟨fun s none_ => clearWrite_none none_, fun s b rest l k head line clearing => ⟨fun full => ?_, fun room more => ?_, fun room last => ?_⟩⟩
  · rw [clearWrite_head head line clearing, if_neg (by simp only [Config.maxWrites]; omega)]
  · rw [clearWrite_head head line clearing, if_pos (by simp only [Config.maxWrites]; omega), clearStep_more more]
  · have step := clearStep_last (s := s) (Nat.not_lt.mpr last) b
    refine ⟨_, (clearWrite_head head line clearing).trans
      (congrArg Host.Outcome.next (if_pos (by simp only [Config.maxWrites]; omega))), ?_, ?_⟩
    · rw [step]
    · rw [step]
      simp only [arbitrate_clearing]

/-! ### The arbiter (R127, R136, R137) -/

theorem arbitrate_busy {m : MemoryPort} {a : Access} (busy : m.access = some a) : m.arbitrate = m := by
  rw [MemoryPort.arbitrate, busy]

theorem arbitrate_refresh {m : MemoryPort} (idle : m.access = none) (due : m.refreshDue = true) :
    m.arbitrate = { m with access := some .refresh, refreshDue := false } := by
  rw [MemoryPort.arbitrate, idle]
  exact if_pos due

theorem arbitrate_queued {m : MemoryPort} (idle : m.access = none) (notDue : m.refreshDue = false) : m.arbitrate = m.chooseQueued := by
  rw [MemoryPort.arbitrate, idle]
  exact if_neg (by simp [notDue])

theorem chooseQueued_empty {m : MemoryPort} (reads : m.readQ = []) (writes : m.writeQ = []) : m.chooseQueued = m := by
  rw [MemoryPort.chooseQueued, reads, writes]

/-- Reads go before writes while the write queue has room (R136). -/
theorem chooseQueued_read {m : MemoryPort} {r : ReadRequest} {rs : List ReadRequest} (reads : m.readQ = r :: rs)
    (room : m.writeQ.length < 8) : m.chooseQueued = m.beginRead r := by
  rw [MemoryPort.chooseQueued, reads]
  cases writes : m.writeQ with
  | nil => rfl
  | cons w ws =>
    have short : ¬ Config.maxWrites ≤ ws.length + 1 := by
      rw [writes, List.length_cons] at room
      simp only [Config.maxWrites]
      omega
    simp only [short, if_false]

theorem chooseQueued_write {m : MemoryPort} {w : WriteRequest} {ws : List WriteRequest} (writes : m.writeQ = w :: ws)
    (reads : m.readQ = []) : m.chooseQueued = m.beginWrite w := by
  rw [MemoryPort.chooseQueued, reads, writes]
  simp

/-- A full write queue goes first, but for a queued read of the oldest write's address (R136, R137). -/
theorem chooseQueued_full {m : MemoryPort} {w : WriteRequest} {ws : List WriteRequest} (writes : m.writeQ = w :: ws)
    (full : 8 ≤ m.writeQ.length) : m.chooseQueued =
      (m.readQ.find? fun r => decide (r.address = w.address)).elim (m.beginWrite w) m.beginRead := by
  have long : Config.maxWrites ≤ ws.length + 1 := by rwa [writes] at full
  rw [MemoryPort.chooseQueued, writes]
  simp only [long, if_true]
  cases m.readQ.find? fun r => decide (r.address = w.address) with
  | none => rfl
  | some r => rfl

/-- The first entry that satisfies a test is found behind those that do not. -/
theorem find_append_cons {α : Type} {p : α → Bool} {early late : List α} {x : α} (before : ∀ y ∈ early, p y = false) (here : p x = true) :
    (early ++ [x] ++ late).find? p = some x := by
  have none_ : early.find? p = none := List.find?_eq_none.mpr fun y hy => by simp [before y hy]
  simp [List.find?_append, none_, here]

/-! ### DRAM accesses (R127, R138, R141) -/

theorem exec_dramReadComplete (s : State) : exec .dramReadComplete s = execDramReadComplete s := rfl
theorem exec_dramWriteComplete (s : State) : exec .dramWriteComplete s = execDramWriteComplete s := rfl
theorem exec_refreshDue (s : State) : exec .refreshDue s = execRefreshDue s := rfl
theorem exec_refreshComplete (s : State) : exec .refreshComplete s = execRefreshComplete s := rfl

/-- Settles O50: each completion by the access under way, and the arbiter by the queues. -/
theorem dramAccessesAndTheArbiter : Obligations.DramAccessesAndTheArbiter := by
  refine ⟨fun s => ?accesses, fun m => ?arbiter⟩
  case accesses =>
    intro free
    refine ⟨fun a g b q p access size pass => ?_, fun a q access size => ?_, fun a v q access size => ?_, fun a d q access size => ?_,
      fun a v q access size => ?_, fun access => ?_, fun running dram => ?_, fun off => ?_⟩
    · rw [exec_dramReadComplete, execDramReadComplete, access]
      simp only [Nat.not_le.mpr size, if_false]
      rw [valueKnown_eq pass]
      rfl
    · rw [exec_dramReadComplete, execDramReadComplete, access]
      simp only [Nat.not_le.mpr size, if_false]
      rfl
    · refine ⟨State.freeDram { s with mem := { s.mem with dram := s.mem.dram.write a v } }, ?_, ?_, fun c => ?_⟩
      · rw [exec_dramWriteComplete, execDramWriteComplete, access]
        simp only [Nat.not_le.mpr size, if_false]
      · have dram : (State.freeDram { s with mem := { s.mem with dram := s.mem.dram.write a v } }).mem.dram = s.mem.dram.write a v := by
          simp [State.freeDram, State.arbitrateMem]
        rw [dram]
        rfl
      · simp [State.freeDram, State.arbitrateMem, Memory.read_write]
    · rw [exec_dramReadComplete, execDramReadComplete, access]
      simp only [size, if_true]
    · rw [exec_dramWriteComplete, execDramWriteComplete, access]
      simp only [size, if_true]
    · rw [exec_refreshComplete, execRefreshComplete, access]
      rfl
    · rw [exec_refreshDue, execRefreshDue, if_neg (by simp [running, dram])]
      cases access : s.mem.access with
      | none =>
        have begins := arbitrate_refresh (m := { s.mem with refreshDue := true }) access rfl
        exact congrArg (fun m => Host.Outcome.next { s with mem := m }) begins
      | some a =>
        have waits := arbitrate_busy (m := { s.mem with refreshDue := true }) access
        exact congrArg (fun m => Host.Outcome.next { s with mem := m }) waits
    · rw [exec_refreshDue, execRefreshDue, if_pos off.symm]
  case arbiter =>
    refine ⟨fun a busy => arbitrate_busy busy, fun idle due => arbitrate_refresh idle due, fun idle notDue => ?_⟩
    rw [arbitrate_queued idle notDue]
    refine ⟨chooseQueued_empty, fun r rs reads room => chooseQueued_read reads room, fun w ws writes reads => chooseQueued_write writes reads,
      fun w ws writes full others => ?_, fun w ws early r late writes full reads before here => ?_⟩
    · have none_ : m.readQ.find? (fun r => decide (r.address = w.address)) = none :=
        List.find?_eq_none.mpr fun r hr => by simp [others r hr]
      rw [chooseQueued_full writes full, none_]
      rfl
    · have found : m.readQ.find? (fun q => decide (q.address = w.address)) = some r := by
        rw [reads]
        exact find_append_cons (fun q hq => decide_eq_false (before q hq)) (decide_eq_true here)
      rw [chooseQueued_full writes full, found]
      rfl

end Sys2Proof.Machine
end

section
/-! PROOFS. The delay exchange: the pair a visit fixes, and the offers of its read and its write (R73, R75, R135). -/

namespace Sys2Proof.Machine

variable {s : State} {g : GroupId} {p : Pass} {w : Waiting} {a : Nat}

/-! ### What an offer looks at (R135) -/

theorem mayTake_iff {waiters : List GroupId} {g : GroupId} : mayTake waiters g = true ↔ ∀ h ∈ waiters.head?, h = g := by
  cases waiters with
  | nil => simp [mayTake]
  | cons h rest => simp [mayTake]

theorem newestWrite_none {q : List WriteRequest} (none_ : ∀ x ∈ q, x.address ≠ a) : newestWrite q a = none :=
  List.find?_eq_none.mpr fun x hx => by simp [none_ x (List.mem_reverse.mp hx)]

/-- The newest write to an address is the last of the queue to it (R135). -/
theorem newestWrite_some {older newer : List WriteRequest} {x : WriteRequest} (here : x.address = a)
    (after : ∀ y ∈ newer, y.address ≠ a) : newestWrite (older ++ [x] ++ newer) a = some x := by
  have turned : (older ++ [x] ++ newer).reverse = newer.reverse ++ [x] ++ older.reverse := by simp
  rw [newestWrite, turned]
  exact find_append_cons (fun y hy => decide_eq_false (after y (List.mem_reverse.mp hy))) (decide_eq_true here)

/-! ### The offer of a read (R135) -/

/-- A pass whose read has been accepted, and which waits no longer for room in the read queue. -/
theorem readAccepted_eq (pass : s.pass g = some p) (wait : p.wait = some w) : s.readAccepted g = { s with
    mix := { s.mix with passes := s.mix.passes.set g (some { p with wait := some { w with read := none } }) }
    mem := { s.mem with readWait := s.mem.readWait.filter fun h => decide (h ≠ g) } } := by
  rw [State.readAccepted, State.modifyPass, pass]
  simp only [Option.map_some, wait]
  rfl

/-- A placement does not look at the memory port. -/
theorem place_withMem (pass : s.pass g = some p) (m : MemoryPort) (b : BusId) (v : Sample) :
    (State.place { s with mem := m } g b v).word = (s.place g b v).word := by
  by_cases barred : p.leftLocked = true ∧ (s.group g).state = .locked
  · rw [place_barred (s := { s with mem := m }) pass barred.1 barred.2, place_barred pass barred.1 barred.2]
  · rw [place_eq (s := { s with mem := m }) pass barred, place_eq pass barred]
    rfl

/-- The value of an accepted read is forwarded to its pass (R135, R138). -/
theorem valueKnown_readAccepted (pass : s.pass g = some p) (wait : p.wait = some w) (b : BusId) (v : Sample) :
    (s.readAccepted g).valueKnown g b v = { s with
      mix := { s.mix with passes := s.mix.passes.set g (some { p.known b v with wait := some { w with read := none } }) }
      mem := { s.mem with readWait := s.mem.readWait.filter fun h => decide (h ≠ g) }
      word := (s.place g b v).word } := by
  have accepted := readAccepted_eq pass wait
  have pass' : (s.readAccepted g).pass g = some { p with wait := some { w with read := none } } := by
    rw [accepted]
    exact PerLetter.get_set_self _ _ _
  have placed : ((s.readAccepted g).place g b v).word = (s.place g b v).word := by
    have here := place_setPass pass (q := { p with wait := some { w with read := none } }) rfl b v
    have own : (s.setPass g (some { p with wait := some { w with read := none } })).pass g =
        some { p with wait := some { w with read := none } } := PerLetter.get_set_self _ _ _
    rw [accepted]
    exact (place_withMem own _ b v).trans (by rw [here])
  rw [valueKnown_eq pass', placed, accepted]
  simp only [PerLetter.set_set]
  rfl

section
variable (pass : s.pass g = some p) (wait : p.wait = some w) (read : w.read = some a)
include pass wait read

theorem offerRead_forwarded {x : WriteRequest} (newest : newestWrite s.mem.writeQ a = some x) :
    s.offerRead g = ((s.readAccepted g).valueKnown g w.bus (sampleOfDram x.value)).offerWrite g := by
  simp only [State.offerRead, pass, wait, read, newest]

theorem offerRead_queued (newest : newestWrite s.mem.writeQ a = none) (room : s.mem.readQ.length < 16)
    (first : ∀ h ∈ s.mem.readWait.head?, h = g) :
    s.offerRead g = ((s.readAccepted g).admitRead { address := a, group := g, bus := w.bus }).offerWrite g := by
  have may : s.mem.readQ.length < Config.maxReads ∧ mayTake s.mem.readWait g = true := ⟨room, mayTake_iff.mpr first⟩
  simp only [State.offerRead, pass, wait, read, newest]
  exact if_pos may

theorem offerRead_waits (newest : newestWrite s.mem.writeQ a = none)
    (full : ¬(s.mem.readQ.length < 16 ∧ ∀ h ∈ s.mem.readWait.head?, h = g)) :
    s.offerRead g = { s with mem := { s.mem with readWait := joinWait s.mem.readWait g } } := by
  have mayNot : ¬(s.mem.readQ.length < Config.maxReads ∧ mayTake s.mem.readWait g = true) :=
    fun ⟨room, may⟩ => full ⟨room, mayTake_iff.mp may⟩
  simp only [State.offerRead, pass, wait, read, newest]
  exact if_neg mayNot

end

/-! ### The offer of a write (R73, R75, R135) -/

section
variable (pass : s.pass g = some p) (wait : p.wait = some w)
include pass wait

theorem offerWrite_admitted {l : Line} (line : s.line w.bus = some l) (room : s.mem.writeQ.length < 8)
    (first : ∀ h ∈ s.mem.writeWait.head?, h = g) : s.offerWrite g = { s with
      mix := { s.mix with passes := s.mix.passes.set g (some { p with wait := none }) }
      mem := MemoryPort.arbitrate { s.mem with
        writeWait := s.mem.writeWait.filter fun h => decide (h ≠ g)
        writeQ := s.mem.writeQ ++ [{ address := w.write, value := w.value.signExtend 32, source := .pass g w.bus }]
        lines := s.mem.lines.set w.bus (some { l with writeIndex := (l.writeIndex + 1) % l.length }) } } := by
  have may : s.mem.writeQ.length < Config.maxWrites ∧ mayTake s.mem.writeWait g = true := ⟨room, mayTake_iff.mpr first⟩
  have advance (u : State) (hu : u.line w.bus = some l) :
      u.advanceIndex w.bus = u.setLine w.bus (some { l with writeIndex := (l.writeIndex + 1) % l.length }) := by
    rw [State.advanceIndex, hu]
  simp only [State.offerWrite, pass, wait]
  rw [if_pos may, advance, State.modifyPass, pass]
  · rfl
  · exact line

theorem offerWrite_waits (full : ¬(s.mem.writeQ.length < 8 ∧ ∀ h ∈ s.mem.writeWait.head?, h = g)) :
    s.offerWrite g = { s with mem := { s.mem with writeWait := joinWait s.mem.writeWait g } } := by
  have mayNot : ¬(s.mem.writeQ.length < Config.maxWrites ∧ mayTake s.mem.writeWait g = true) :=
    fun ⟨room, may⟩ => full ⟨room, mayTake_iff.mp may⟩
  simp only [State.offerWrite, pass, wait]
  exact if_neg mayNot

end

/-! ### The visit and the events (R73, R75, R135) -/

/-- The pair that a visit of an ACTIVE line with a delay fixes (R73). -/
theorem visit_exchanges (pass : s.pass g = some p) {i : PassBus} {l : Line} (line : s.line i.bus = some l) (active : l.state = .active)
    (delay : l.delay ≠ 0) : s.visit g i = State.offerRead (s.setPass g (some { p with
      buses := p.buses.map fun j => if j.bus = i.bus then { j with progress := .readOutstanding } else j
      outstanding := p.outstanding ++ [(l.base + (l.writeIndex + l.length - l.delay) % l.length, i.bus)]
      wait := some { bus := i.bus, read := some (l.base + (l.writeIndex + l.length - l.delay) % l.length),
                     write := l.base + l.writeIndex, value := i.result } })) g := by
  rw [State.visit, line]
  simp only [active, delay, if_false]
  rw [State.exchangeLine, State.modifyPass, pass]
  rfl

theorem exec_passReadOffer (s : State) (g : GroupId) : exec (.passReadOffer g) s = execPassReadOffer g s := rfl
theorem exec_passWriteOffer (s : State) (g : GroupId) : exec (.passWriteOffer g) s = execPassWriteOffer g s := rfl

/-- Settles O47: the visit, the offers of a read and a write by what the queues allow, and the two events that offer again. -/
theorem exchangesWithTheLine : Obligations.ExchangesWithTheLine := by
  refine ⟨fun s g p pass => ⟨fun i l stage idle next line active delay => ?visit, fun w a wait read => ?read, fun w wait => ?write⟩,
    fun s g => ⟨fun room head => ?_, fun room head => ?_, fun full => ?_, fun full => ?_⟩⟩
  case visit =>
    rw [exec_exchangeVisit pass stage idle next, visit_exchanges pass line active delay]
    rfl
  case read =>
    refine ⟨fun older q newer queue here after => ?_, fun none_ room first => ?_, fun none_ full => ?_⟩
    · rw [offerRead_forwarded pass wait read (x := q) (by rw [queue]; exact newestWrite_some here after),
        valueKnown_readAccepted pass wait, sampleOfDram, extractLsb_low]
      rfl
    · rw [offerRead_queued pass wait read (newestWrite_none none_) room first, readAccepted_eq pass wait]
      rfl
    · rw [offerRead_waits pass wait read (newestWrite_none none_) full]
      rfl
  case write =>
    refine ⟨fun l line room first => offerWrite_admitted pass wait line room first, fun full => ?_⟩
    rw [offerWrite_waits pass wait full]
    rfl
  · rw [exec_passReadOffer, execPassReadOffer]
    exact congrArg Host.Outcome.next (if_pos ⟨room, head⟩)
  · rw [exec_passWriteOffer, execPassWriteOffer]
    exact congrArg Host.Outcome.next (if_pos ⟨room, head⟩)
  · rw [exec_passReadOffer, execPassReadOffer]
    exact congrArg Host.Outcome.next (if_neg full)
  · rw [exec_passWriteOffer, execPassWriteOffer]
    exact congrArg Host.Outcome.next (if_neg full)

end Sys2Proof.Machine
end

section
/-! PROOFS. LINE DEFINE, LINE CLEAR and LINE RELEASE (R129, R130, R131). -/

namespace Sys2Proof.Machine

variable {s t u : State} {f : ReceivedFrame} {b : BusId} {g h : GroupId} {p : Pass}

/-! ### The passes after a withdrawal (R75, R139) -/

theorem finishPass_pass_other (other : h ≠ g) (s : State) : (s.finishPass g).pass h = s.pass h := by
  cases pass : s.pass g with
  | none => simp only [State.finishPass, pass]
  | some p =>
    by_cases done : p.done = true
    · rw [finishPass_done pass done, endPass_pass, if_neg other]
    · rw [finishPass_going pass done]

/-- A pass that goes on after its end has been judged is the one there was. -/
theorem finishPass_pass_self (going : p ∈ (s.finishPass g).pass g) : s.pass g = some p := by
  cases pass : s.pass g with
  | none => simp [State.finishPass, pass] at going
  | some q =>
    by_cases done : q.done = true
    · simp [finishPass_done pass done, endPass_pass] at going
    · rw [finishPass_going pass done, pass] at going
      exact going

theorem withdrawOf_idle (idle : s.pass g = none) (b : BusId) : s.withdrawOf g b = s := by
  simp only [State.withdrawOf, idle]

/-- A pass that offers nothing for the bus has nothing to withdraw (R139). -/
theorem withdrawOf_quiet (pass : s.pass g = some p) (quiet : ∀ w ∈ p.wait, w.bus ≠ b) : s.withdrawOf g b = s := by
  cases wait : p.wait with
  | none => simp only [State.withdrawOf, pass, wait]
  | some w => simp only [State.withdrawOf, pass, wait, if_pos (quiet w wait)]

/-- A withdrawal leaves the other group's pass as it is. -/
theorem withdrawOf_pass_other (other : h ≠ g) (s : State) (b : BusId) : (s.withdrawOf g b).pass h = s.pass h := by
  unfold State.withdrawOf
  split
  case h_1 => rfl
  case h_2 p _ =>
    split
    case h_1 => rfl
    case h_2 w _ =>
      split
      case isTrue => rfl
      case isFalse =>
        rw [finishPass_pass_other other]
        exact (setPass_pass s g h _).trans (if_neg other)

/-- A pass that is withdrawn from a bus offers nothing for it any more (R75, R139). -/
theorem withdrawOf_pass_self (s : State) (g : GroupId) (b : BusId) : ∀ p ∈ (s.withdrawOf g b).pass g, ∀ w ∈ p.wait, w.bus ≠ b := by
  intro p going w offers
  cases pass : s.pass g with
  | none =>
    rw [withdrawOf_idle pass, pass] at going
    cases going
  | some q =>
    by_cases quiet : ∀ v ∈ q.wait, v.bus ≠ b
    · rw [withdrawOf_quiet pass quiet, pass] at going
      cases going
      exact quiet w offers
    · simp only [Classical.not_forall, ne_eq, Classical.not_not] at quiet
      obtain ⟨v, wait, own⟩ := quiet
      simp only [State.withdrawOf, pass, Option.mem_def.mp wait, own, ne_eq, not_true, if_false] at going
      have left := finishPass_pass_self going
      change (s.setPass g _).pass g = some p at left
      rw [setPass_pass, if_pos rfl] at left
      cases read : v.read with
      | none =>
        simp only [read, Option.some.injEq] at left
        rw [← left] at offers
        cases offers
      | some a =>
        simp only [read, Option.some.injEq] at left
        rw [← left] at offers
        cases offers

theorem withdraw_pass_waits (s : State) (b : BusId) (g : GroupId) : ∀ p ∈ (s.withdraw b).pass g, ∀ w ∈ p.wait, w.bus ≠ b := by
  cases g with
  | A =>
    intro p going
    rw [State.withdraw, withdrawOf_pass_other (by decide)] at going
    exact withdrawOf_pass_self s .A b p going
  | B => exact withdrawOf_pass_self _ .B b

theorem withdraw_pass_quiet (pass : s.pass g = some p) (quiet : ∀ w ∈ p.wait, w.bus ≠ b) : (s.withdraw b).pass g = some p := by
  cases g with
  | A => rw [State.withdraw, withdrawOf_pass_other (by decide), withdrawOf_quiet pass quiet, pass]
  | B =>
    have still : (s.withdrawOf .A b).pass .B = some p := (withdrawOf_pass_other (by decide) s b).trans pass
    rw [State.withdraw, withdrawOf_quiet still quiet, still]

/-- The state in which a line has changed: the lines and the clearing order. -/
def State.relined (s : State) (lines : Vector (Option Line) 16) (clearing : List BusId) : State :=
  { s with mem := { s.mem with lines := lines, clearing := clearing } }

/-- What LINE CLEAR and LINE RELEASE leave alone: the queues, the access under way, and every pass that offers nothing for the bus (R130, R131; log 12). -/
structure State.Withdrawn (t s : State) (f : ReceivedFrame) (b : BusId) : Prop where
  quiet : t.mem.readQ = s.mem.readQ ∧ t.mem.writeQ = s.mem.writeQ ∧ t.mem.access = s.mem.access ∧ t.mem.dram = s.mem.dram ∧
    t.mem.openRow = s.mem.openRow ∧ t.lane = s.lane ∧ t.word = s.word ∧ t.mix.xp = s.mix.xp ∧ t.mix.routes = s.mix.routes ∧
    t.mix.buses = s.mix.buses ∧ t.faults = s.faults ∧ t.pins = s.pins ∧ t.link = s.link.answered f .ok [] ∧
    (∀ g, ∀ p ∈ t.pass g, ∀ w ∈ p.wait, w.bus ≠ b) ∧
    (∀ g p, s.pass g = some p → (∀ w ∈ p.wait, w.bus ≠ b) → t.pass g = some p)

theorem withdrawn_relined (s : State) (f : ReceivedFrame) (b : BusId) (lines : Vector (Option Line) 16) (clearing : List BusId) :
    State.Withdrawn { (s.taken.relined lines clearing).withdraw b with link := s.link.answered f .ok [] } s f b := by
  have passes (g : GroupId) : State.pass { (s.taken.relined lines clearing).withdraw b with link := s.link.answered f .ok [] } g =
      ((s.taken.relined lines clearing).withdraw b).pass g := rfl
  refine ⟨?_⟩
  simp only [passes]
  refine ⟨?_, ?_, ?_, ?_, ?_, ?_, ?_, ?_, ?_, ?_, ?_, ?_, ?_, withdraw_pass_waits _ b, fun g p pass quiet => withdraw_pass_quiet pass quiet⟩
  all_goals simp [State.relined, State.taken]

/-! ### LINE DEFINE (R129) -/

theorem exec_lineDefine (s : State) : exec .lineDefine s = .next (s.takeRequest .lineDefine lineDefine) := rfl
theorem exec_lineClear (s : State) : exec .lineClear s = .next (s.takeRequest .lineClear lineClear) := rfl
theorem exec_lineRelease (s : State) : exec .lineRelease s = .next (s.takeRequest .lineRelease lineRelease) := rfl

/-- LINE DEFINE of a payload with the fields of R129: its checks, in order. -/
theorem lineDefine_fields (s : State) (b : BusId) (base length : BitVec 24) :
    lineDefine ([BitVec.ofNat 8 b.val] ++ bytes24 base ++ bytes24 length) s =
      if (s.line b).isSome then s.refuse .inUse
      else if length.toNat ∉ lineLengths ∨ base.toNat % length.toNat ≠ 0 then s.refuse .badValue
      else if s.dramWords = 0 ∨ s.dramWords < base.toNat + length.toNat then s.refuse .outOfMemory
      else if allBuses.any fun c => (s.line c).any (overlaps base.toNat length.toNat) then s.refuse .overlap
      else (s.addLine b base.toNat length.toNat).accept [] := by
  have bus : index16Of (byteAt ([BitVec.ofNat 8 b.val] ++ bytes24 base ++ bytes24 length) 0) = some b := index16Of_ofNat b
  have first : field24 ([BitVec.ofNat 8 b.val] ++ bytes24 base ++ bytes24 length) 1 = base := bytes24_join base
  have words : field24 ([BitVec.ofNat 8 b.val] ++ bytes24 base ++ bytes24 length) 4 = length := bytes24_join length
  have size : ([BitVec.ofNat 8 b.val] ++ bytes24 base ++ bytes24 length).length = 7 := rfl
  have crowd : (allBuses.any fun c => (s.line c).any (overlaps base.toNat length.toNat)) =
      allBuses.any fun c => match s.line c with | some l => overlaps base.toNat length.toNat l | none => false := by
    congr 1
    funext c
    cases s.line c with
    | none => rfl
    | some l => rfl
  rw [crowd]
  simp only [lineDefine, bus, first, words, size]
  rfl

theorem overlaps_eq_false {base length : Nat} {m : Line} :
    overlaps base length m = false ↔ base + length ≤ m.base ∨ m.base + m.length ≤ base := by
  simp only [overlaps, decide_eq_false_iff_not]
  omega

theorem any_overlaps_eq_false {base length : Nat} : (allBuses.any fun c => (s.line c).any (overlaps base length)) = false ↔
    ∀ c, ∀ m ∈ s.line c, base + length ≤ m.base ∨ m.base + m.length ≤ base := by
  simp only [List.any_eq_false, allBuses, List.mem_finRange, true_imp_iff, Bool.not_eq_true, Option.any_eq_false, overlaps_eq_false]
  rfl

/-! ### LINE CLEAR and LINE RELEASE (R130, R131) -/

theorem lineClear_bus (s : State) (b : BusId) : lineClear [BitVec.ofNat 8 b.val] s =
    (s.line b).elim (s.refuse .noLine) fun l => (s.restartLine b l).accept [] := by
  have bus : index16Of (byteAt [BitVec.ofNat 8 b.val] 0) = some b := index16Of_ofNat b
  simp only [lineClear, bus]
  rw [if_neg (by simp)]
  cases s.line b with
  | none => rfl
  | some l => rfl

theorem lineRelease_bus (s : State) (b : BusId) : lineRelease [BitVec.ofNat 8 b.val] s =
    if (s.line b).isNone then s.refuse .noLine else (s.dropLine b).accept [] := by
  have bus : index16Of (byteAt [BitVec.ofNat 8 b.val] 0) = some b := index16Of_ofNat b
  simp only [lineRelease, bus]
  rw [if_neg (by simp)]
  rfl

/-- The clear of a line begins afresh: an ACTIVE line joins the clearing order, and another keeps its place (R130). -/
theorem restartLine_eq (s : State) (b : BusId) (l : Line) : ∃ order,
    s.restartLine b l = (s.relined (s.mem.lines.set b (some { l with writeIndex := 0, state := .clearing 0 })) order).withdraw b ∧
    (l.state = .active → order = s.mem.clearing ++ [b]) ∧ (l.state ≠ .active → order = s.mem.clearing) := by
  cases state : l.state with
  | active =>
    refine ⟨s.mem.clearing ++ [b], ?_, fun _ => rfl, fun other => absurd rfl other⟩
    simp only [State.restartLine, state]
    rfl
  | clearing k =>
    refine ⟨s.mem.clearing, ?_, nofun, fun _ => rfl⟩
    simp only [State.restartLine, state]
    rfl

theorem dropLine_eq (s : State) (b : BusId) : s.dropLine b =
    (s.relined (s.mem.lines.set b none) (s.mem.clearing.filter fun c => decide (c ≠ b))).withdraw b := rfl

/-- A line request that withdraws is answered OK, with the state it leaves (R130, R131). -/
theorem takeRequest_withdraws {kind : RequestKind} {payload : List Byte} (ha : s.Asks f kind payload) {run : List Byte → State → Answer}
    {lines : Vector (Option Line) 16} {clearing : List BusId}
    (hr : run payload s.taken = ((s.taken.relined lines clearing).withdraw b).accept []) :
    s.takeRequest kind run = { (s.taken.relined lines clearing).withdraw b with link := s.link.answered f .ok [] } :=
  takeRequest_accepted (l := s.link) ha hr (by simp [State.relined, State.taken])

/-- Settles O48: the checks of LINE DEFINE in order, and the withdrawal that LINE CLEAR and LINE RELEASE share. -/
theorem lineRequests : Obligations.LineRequests := by
  refine ⟨fun s f b base length ha => ?define, fun s f b => ?withdraws⟩
  case define =>
    intro shape fits clear
    have run := lineDefine_fields s.taken b base length
    have used : (s.taken.line b).isSome = true ↔ s.line b ≠ none := Option.isSome_iff_ne_none
    have misshapen : (length.toNat ∉ lineLengths ∨ base.toNat % length.toNat ≠ 0) ↔ ¬ shape :=
      Classical.not_and_iff_not_or_not.symm
    have unfit : (s.taken.dramWords = 0 ∨ s.taken.dramWords < base.toNat + length.toNat) ↔ ¬ fits := by
      have words : s.taken.dramWords = s.dramWords := rfl
      simp only [fits, words]
      omega
    have crowded : (allBuses.any fun c => (s.taken.line c).any (overlaps base.toNat length.toNat)) = true ↔ ¬ clear :=
      (Bool.not_eq_false _).symm.to_iff.trans (not_congr any_overlaps_eq_false)
    rw [exec_lineDefine]
    refine ⟨fun taken => ?_, fun free bad => ?_, fun free ok bad => ?_, fun free ok room bad => ?_, fun free ok room apart => ?_⟩
    · exact congrArg Host.Outcome.next (takeRequest_refused ha (run.trans (if_pos (used.mpr taken))))
    · refine congrArg Host.Outcome.next (takeRequest_refused ha (run.trans ?_))
      rw [if_neg (mt used.mp (not_not_intro free)), if_pos (misshapen.mpr bad)]
    · refine congrArg Host.Outcome.next (takeRequest_refused ha (run.trans ?_))
      rw [if_neg (mt used.mp (not_not_intro free)), if_neg (mt misshapen.mp (not_not_intro ok)), if_pos (unfit.mpr bad)]
    · refine congrArg Host.Outcome.next (takeRequest_refused ha (run.trans ?_))
      rw [if_neg (mt used.mp (not_not_intro free)), if_neg (mt misshapen.mp (not_not_intro ok)),
        if_neg (mt unfit.mp (not_not_intro room)), if_pos (crowded.mpr bad)]
    · have accepted : lineDefine ([BitVec.ofNat 8 b.val] ++ bytes24 base ++ bytes24 length) s.taken =
          (s.taken.addLine b base.toNat length.toNat).accept [] := by
        rw [run, if_neg (mt used.mp (not_not_intro free)), if_neg (mt misshapen.mp (not_not_intro ok)),
          if_neg (mt unfit.mp (not_not_intro room)), if_neg (mt crowded.mp (not_not_intro apart))]
      exact congrArg Host.Outcome.next (takeRequest_accepted (l := s.link) ha accepted rfl)
  case withdraws =>
    intro quiet
    refine ⟨fun ha => ?clear, fun ha => ?release⟩
    case clear =>
      have run := lineClear_bus s.taken b
      rw [exec_lineClear]
      refine ⟨fun none_ => ?_, fun l line => ?_⟩
      · refine congrArg Host.Outcome.next (takeRequest_refused ha (run.trans ?_))
        have gone : s.taken.line b = none := none_
        rw [gone]
        rfl
      · obtain ⟨order, restart, joins, stays⟩ := restartLine_eq s.taken b l
        have here : s.taken.line b = some l := line
        rw [here, Option.elim_some, restart] at run
        refine ⟨_, congrArg Host.Outcome.next (takeRequest_withdraws ha run), (withdrawn_relined s f b _ order).quiet, ?_, ?_, ?_⟩
        · simp [State.relined, State.taken]
        · simpa [State.relined, State.taken] using joins
        · simpa [State.relined, State.taken] using stays
    case release =>
      have run := lineRelease_bus s.taken b
      rw [exec_lineRelease]
      refine ⟨fun none_ => ?_, fun some_ => ?_⟩
      · refine congrArg Host.Outcome.next (takeRequest_refused ha (run.trans (if_pos ?_)))
        exact Option.isNone_iff_eq_none.mpr none_
      · have present : ¬ (s.taken.line b).isNone = true := mt Option.isNone_iff_eq_none.mp some_
        rw [if_neg present, dropLine_eq] at run
        refine ⟨_, congrArg Host.Outcome.next (takeRequest_withdraws ha run), (withdrawn_relined s f b _ _).quiet, ?_, ?_⟩
        · simp [State.relined, State.taken]
        · simp [State.relined, State.taken]

end Sys2Proof.Machine
end

section
/-! PROOFS. BUS SET and CLIP CLEAR (R40, R43). -/

namespace Sys2Proof.Machine

variable {s t : State} {f : ReceivedFrame}

/-! ### BUS SET (R40) -/

theorem exec_busSet (s : State) : exec .busSet s = .next (s.takeRequest .busSet busSet) := rfl
theorem exec_clipClear (s : State) : exec .clipClear s = .next (s.takeRequest .clipClear clipClear) := rfl

theorem busGroupOf_byte (group : Option GroupId) : busGroupOf (byteOfBusGroup group) = some group := by
  cases group with
  | none => rfl
  | some g => cases g <;> rfl

theorem roundingOf_code (r : Rounding) : roundingOf r.code = some r := by cases r <;> rfl

theorem overflowOf_code (o : Overflow) : overflowOf o.code = some o := by cases o <;> rfl

/-- BUS SET of a payload with the fields of R40. -/
theorem busSet_fields (s : State) (b : BusId) (group : Option GroupId) (r : Rounding) (o : Overflow) :
    busSet [BitVec.ofNat 8 b.val, byteOfBusGroup group, r.code, o.code] s =
      if group ≠ (s.bus b).group ∧ ¬((s.bus b).entryCount = 0 ∧ (s.bus b).ownedCount = 0 ∧ (s.bus b).holdCount = 0) then s.refuse .inUse
      else (s.modifyBus b fun c => { c with group := group, rounding := r, overflow := o }).accept [] := by
  have bus : index16Of (byteAt [BitVec.ofNat 8 b.val, byteOfBusGroup group, r.code, o.code] 0) = some b := index16Of_ofNat b
  have second : busGroupOf (byteAt [BitVec.ofNat 8 b.val, byteOfBusGroup group, r.code, o.code] 1) = some group := busGroupOf_byte group
  have third : roundingOf (byteAt [BitVec.ofNat 8 b.val, byteOfBusGroup group, r.code, o.code] 2) = some r := roundingOf_code r
  have fourth : overflowOf (byteAt [BitVec.ofNat 8 b.val, byteOfBusGroup group, r.code, o.code] 3) = some o := overflowOf_code o
  simp only [busSet, bus, second, third, fourth]
  exact if_neg (by simp)

/-! ### CLIP CLEAR (R43) -/

/-- The clip mask has the bit of every bus whose clip flag is set (R43). -/
theorem clipMask_bit (s : State) (b : BusId) : s.clipMask.getLsbD b.val = (s.bus b).clip := by
  have sorted : ((allBuses.filter fun c => (s.bus c).clip).map Fin.val).Pairwise (· < ·) :=
    List.pairwise_map.mpr ((List.pairwise_lt_finRange 16).filter _)
  have powers : ((allBuses.filter fun c => (s.bus c).clip).map fun c => 2 ^ c.val) =
      ((allBuses.filter fun c => (s.bus c).clip).map Fin.val).map fun k => 2 ^ k := (List.map_map ..).symm
  rw [State.clipMask, BitVec.getLsbD_ofNat, powers, testBit_sum_two_pow sorted, decide_eq_true b.isLt, Bool.true_and]
  refine Bool.eq_iff_iff.mpr (decide_eq_true_iff.trans ⟨fun h => ?_, fun h => ?_⟩)
  · obtain ⟨c, hc, index⟩ := List.mem_map.mp h
    rw [← Fin.ext index]
    exact (List.mem_filter.mp hc).2
  · exact List.mem_map.mpr ⟨b, List.mem_filter.mpr ⟨List.mem_finRange b, h⟩, rfl⟩

/-- CLIP CLEAR of a mask (R43). -/
theorem clipClear_mask (s : State) (mask : BitVec 16) : clipClear (bytes16 mask) s =
    (s.clearClips mask).accept (bytes16 (s.clipMask &&& mask)) := by
  have mask' : field16 (bytes16 mask) 0 = mask := bytes16_join mask
  rw [clipClear, if_neg (by simp [bytes16]), mask']
  rfl

theorem clearClips_eq (s : State) (mask : BitVec 16) :
    s.clearClips mask = { s with mix := { s.mix with buses := (s.clearClips mask).mix.buses } } := rfl

/-- Settles O30: BUS SET refused or carried out, and the clip flags bit by bit. -/
theorem busSettingsAndClipFlags : Obligations.BusSettingsAndClipFlags := by
  refine ⟨fun s f b group r o ha => ?set, fun s f mask ha => ?clear⟩
  case set =>
    have run := busSet_fields s.taken b group r o
    rw [exec_busSet]
    refine ⟨fun moves held => ?_, fun allowed => ?_⟩
    · exact congrArg Host.Outcome.next (takeRequest_refused ha (run.trans (if_pos ⟨moves, held⟩)))
    · have free : ¬(group ≠ (s.taken.bus b).group ∧ ¬((s.taken.bus b).entryCount = 0 ∧ (s.taken.bus b).ownedCount = 0 ∧
          (s.taken.bus b).holdCount = 0)) := fun ⟨moves, held⟩ => allowed.elim moves held
      exact congrArg Host.Outcome.next (takeRequest_accepted (l := s.link) ha (run.trans (if_neg free)) rfl)
  case clear =>
    have bus (b : BusId) : (s.taken.clearClips mask).mix.buses[b] = { s.bus b with clip := (s.bus b).clip && !mask.getLsbD b.val } :=
      clearClips_bus s.taken mask b
    have run := clipClear_mask s.taken mask
    rw [clearClips_eq] at run
    generalize (s.taken.clearClips mask).mix.buses = buses at bus run
    refine ⟨{ s with mix := { s.mix with buses := buses }, link := s.link.answered f .ok (bytes16 (s.clipMask &&& mask)) },
      s.clipMask &&& mask, ?_, rfl, fun b => ⟨bus b, ?_⟩⟩
    · rw [exec_clipClear]
      exact congrArg Host.Outcome.next (takeRequest_accepted (l := s.link) ha run rfl)
    · rw [BitVec.getLsbD_and, clipMask_bit]

end Sys2Proof.Machine
end

section
/-! PROOFS. GROUP READ, XP READ, CUE READ, LINE READ and PIN READ (R24, R51, R104, R132, R170, R178). -/

namespace Sys2Proof.Machine

variable {s : State} {f : ReceivedFrame}

theorem exec_groupRead (s : State) : exec .groupRead s = .next (s.takeRequest .groupRead groupRead) := rfl
theorem exec_xpRead (s : State) : exec .xpRead s = .next (s.takeRequest .xpRead xpRead) := rfl
theorem exec_cueRead (s : State) : exec .cueRead s = .next (s.takeRequest .cueRead cueRead) := rfl
theorem exec_lineRead (s : State) : exec .lineRead s = .next (s.takeRequest .lineRead lineRead) := rfl
theorem exec_pinRead (s : State) : exec .pinRead s = .next (s.takeRequest .pinRead pinRead) := rfl

/-! ### GROUP READ (R24) -/

theorem groupRead_letter (s : State) (g : GroupId) : groupRead [byteOfLetter g] s = s.accept
    ([(s.group g).state.code] ++ bytes32 (s.group g).counter ++ bytes32 (s.group g).mark ++ [(s.group g).markMode.code]) := by
  have letter : letterOf (byteAt [byteOfLetter g] 0) = some g := letterOf_byteOfLetter g
  simp only [groupRead, letter]
  exact if_neg (by simp)

/-! ### XP READ (R51) -/

theorem xpRead_fields (s : State) (b : BusId) (c : Channel) : xpRead [BitVec.ofNat 8 b.val, BitVec.ofNat 8 c.val] s = s.accept
    ([BitVec.ofNat 8 b.val, BitVec.ofNat 8 (s.bus b).entryCount, BitVec.ofNat 8 (min 3 (s.entriesFrom b c).length),
      if 3 < (s.entriesFrom b c).length then 1 else 0] ++ ((s.entriesFrom b c).take 3).flatMap Entry.bytes) := by
  have bus : index16Of (byteAt [BitVec.ofNat 8 b.val, BitVec.ofNat 8 c.val] 0) = some b := index16Of_ofNat b
  have channel : index16Of (byteAt [BitVec.ofNat 8 b.val, BitVec.ofNat 8 c.val] 1) = some c := index16Of_ofNat c
  simp only [xpRead, bus, channel, byteOfBool, decide_eq_true_eq]
  rw [if_neg (by simp), List.length_take]
  rfl

/-- The entries of a bus from a channel on are in rising order of channel (R51). -/
theorem entriesFrom_sorted (order : s.TableInOrder) (b : BusId) (c : Channel) :
    (s.entriesFrom b c).Pairwise fun x y => x.channel < y.channel := by
  refine (List.Pairwise.filter _ order).imp_of_mem fun {x y} hx hy less => ?_
  have busX := (of_decide_eq_true (List.mem_filter.mp hx).2).1
  have busY := (of_decide_eq_true (List.mem_filter.mp hy).2).1
  simp only [xpKey, busX, busY] at less
  exact Fin.lt_def.mpr (by omega)

/-! ### CUE READ (R104) -/

theorem cueRead_bad {x : Byte} (bad : 24 ≤ x.toNat) (s : State) : cueRead [x] s = s.refuse .badValue := by
  have start : 23 < (byteAt [x] 0).toNat := bad
  simp only [cueRead]
  exact if_pos (.inr start)

theorem cueRead_from (s : State) (k : Fin 24) : cueRead [BitVec.ofNat 8 k.val] s = s.accept
    ([BitVec.ofNat 8 s.cues.length, BitVec.ofNat 8 (128 - s.poolUsed), BitVec.ofNat 8 (min 5 (s.cues.drop k.val).length),
      if 5 < (s.cues.drop k.val).length then 1 else 0] ++ ((s.cues.drop k.val).take 5).flatMap Cue.bytes) := by
  have start : (byteAt [BitVec.ofNat 8 k.val] 0).toNat = k.val := by
    have small : k.val < 256 := by omega
    simpa [byteAt] using small
  simp only [cueRead, start, byteOfBool, decide_eq_true_eq]
  rw [if_neg (by simp; omega), List.length_take]
  rfl

/-- The bits of a flags byte, from the numbers they stand for (R178). -/
theorem flags_bits : ∀ (groupB applying armed : Bool) (kind : Fin 4),
    byteOf ((if groupB then 1 else 0) + (if applying then 2 else 0) + (if armed then 4 else 0) + 16 * kind.val) =
      (0 : BitVec 2) ++ BitVec.ofNat 2 kind.val ++ (0 : BitVec 1) ++ BitVec.ofBool armed ++ BitVec.ofBool applying ++
        BitVec.ofBool groupB := by decide

theorem Trigger.code_lt (t : Trigger) : t.code < 4 := by cases t <;> simp [Trigger.code]

theorem Cue.flags_eq (c : Cue) : c.flags = (0 : BitVec 2) ++ BitVec.ofNat 2 c.trigger.code ++ (0 : BitVec 1) ++ BitVec.ofBool c.armed ++
    BitVec.ofBool (decide (c.state = .applying)) ++ BitVec.ofBool (decide (c.group = .B)) := by
  refine Eq.trans ?_ (flags_bits (decide (c.group = .B)) (decide (c.state = .applying)) c.armed ⟨c.trigger.code, c.trigger.code_lt⟩)
  unfold Cue.flags
  cases c.group with
  | A => cases c.state <;> rfl
  | B => cases c.state <;> rfl

/-! ### LINE READ (R132) -/

theorem lineRead_bus (s : State) (b : BusId) : lineRead [BitVec.ofNat 8 b.val] s =
    (s.line b).elim (s.refuse .noLine) fun l => s.accept l.bytes := by
  have bus : index16Of (byteAt [BitVec.ofNat 8 b.val] 0) = some b := index16Of_ofNat b
  simp only [lineRead, bus]
  rw [if_neg (by simp)]
  cases s.line b with
  | none => rfl
  | some l => rfl

/-! ### PIN READ (R170) -/

theorem pinRead_nil (s : State) : pinRead [] s = s.accept (s.pinBytes 0 ++ s.pinBytes 1 ++ s.pinBytes 2 ++ s.pinBytes 3) := rfl

theorem taken_pinLevel (s : State) (k : PinId) : s.taken.pinLevel k = s.pinLevel k := pinLevel_congr rfl rfl rfl rfl rfl rfl rfl

theorem taken_pinBytes (s : State) (k : PinId) : s.taken.pinBytes k =
    [if (if s.link.twoLine = true ∧ k = 3 then s.attn1 else s.pinLevel k) then 1 else 0, s.pins[k].role.code,
      if s.pins[k].openDrain then 1 else 0, if s.pins[k].report then 1 else 0, if s.link.twoLine = true ∧ k = 3 then 1 else 0] := by
  have takes : s.taken.pinTaken k = s.pinTaken k := rfl
  have attn : s.taken.attn1 = s.attn1 := rfl
  simp only [State.pinBytes, State.reportedLevel, takes, attn, taken_pinLevel, byteOfBool, pinTaken_iff]
  rfl

/-- Settles O34: each read answers from the state alone, byte by byte. -/
theorem readsReportAndChangeNothing : Obligations.ReadsReportAndChangeNothing := by
  intro s f rampFields entryBytes cueBytes
  have entries : entryBytes = Entry.bytes := by
    funext e
    cases state : e.state with
    | steady => simp only [entryBytes, Entry.bytes, state]; rfl
    | ramping r => simp only [entryBytes, Entry.bytes, state]; rfl
    | fading r => simp only [entryBytes, Entry.bytes, state]; rfl
  have cues : cueBytes = Cue.bytes := by
    funext c
    rw [Cue.bytes, Cue.flags_eq]
    cases trigger : c.trigger with
    | atFrame n => simp only [cueBytes, trigger]; rfl
    | next => simp only [cueBytes, trigger]; rfl
    | pin k => simp only [cueBytes, trigger]; rfl
    | after x => simp only [cueBytes, trigger]; rfl
  rw [entries, cues]
  refine ⟨fun g ha => ?_, fun b c ha => ⟨?_, fun order => entriesFrom_sorted order b c⟩, fun k ha => ?_, fun x ha bad => ?_,
    fun b ha => ⟨fun none_ => ?_, fun l line => ?_⟩, fun ha => ?_⟩
  · exact congrArg Host.Outcome.next (takeRequest_reported ha (groupRead_letter s.taken g))
  · exact congrArg Host.Outcome.next (takeRequest_reported ha (xpRead_fields s.taken b c))
  · exact congrArg Host.Outcome.next (takeRequest_reported ha (cueRead_from s.taken k))
  · exact congrArg Host.Outcome.next (takeRequest_refused ha (cueRead_bad bad s.taken))
  · have run := lineRead_bus s.taken b
    have gone : s.taken.line b = none := none_
    rw [gone] at run
    exact congrArg Host.Outcome.next (takeRequest_refused ha run)
  · have run := lineRead_bus s.taken b
    have here : s.taken.line b = some l := line
    rw [here] at run
    rw [exec_lineRead, takeRequest_reported ha run, Line.bytes]
    cases l.state with
    | clearing p => rfl
    | active => rfl
  · have run := pinRead_nil s.taken
    rw [taken_pinBytes, taken_pinBytes, taken_pinBytes, taken_pinBytes] at run
    exact congrArg Host.Outcome.next (takeRequest_reported ha run)

end Sys2Proof.Machine
end

section
/-! PROOFS. QUAD PLAN (R1, R2, R6, R7, R176). -/

namespace Sys2Proof.Machine

variable {s : State} {f : ReceivedFrame} {p : List Byte} {q : QuadId} {plan : Plan} {i : LanePos} {l : LanePlan}

/-! ### The fields of the payload (R2, R6, R176) -/

theorem wordLengthOf_bits : ∀ w : BitVec 2, (wordLengthOf w).bits = [16, 20, 24, 32].getD w.toNat 0 := by decide

/-- A lane byte is that of a lane when its width is 1, 2 or 4 and its reserved bits are zero (R176). -/
theorem laneOf_eq_some {b : Byte} : laneOf b = some l ↔
    (b.extractLsb' 4 3).toNat ∈ [1, 2, 4] ∧ b.extractLsb' 2 2 = 0 ∧
    l = { direction := if b.getLsbD 7 then .output else .input, requested := (b.extractLsb' 4 3).toNat, granted := 0,
          wordLength := wordLengthOf (b.extractLsb' 0 2) } := by
  have width : (b.extractLsb' 4 3).toNat ∈ [1, 2, 4] ↔
      (b.extractLsb' 4 3).toNat = 1 ∨ (b.extractLsb' 4 3).toNat = 2 ∨ (b.extractLsb' 4 3).toNat = 4 := by simp
  unfold laneOf
  dsimp only
  split
  case isTrue good =>
    obtain ⟨wide, reserved⟩ := good
    rw [Option.some.injEq]
    exact ⟨fun same => ⟨width.mpr wide, reserved, same.symm⟩, fun ⟨_, _, same⟩ => same.symm⟩
  case isFalse bad => exact ⟨nofun, fun ⟨wide, reserved, _⟩ => absurd ⟨width.mp wide, reserved⟩ bad⟩

/-- A lane of a plan, from its lane byte and the presence bits (R2, R176). -/
theorem planLane_some (h : planLane p i = some (some l)) : ∃ m, laneOf (byteAt p (4 + i.val)) = some m ∧
    l = { m with granted := min m.requested (allowedWidth (fun j => (byteAt p 1).getLsbD j.val) i) } := by
  have present := present_of_planLane h
  rw [planLane_eq, if_pos present] at h
  obtain ⟨m, lane, same⟩ := Option.map_eq_some_iff.mp h
  exact ⟨m, lane, (Option.some.inj same).symm⟩

/-- A position of a plan carries a lane where its presence bit is set (R1). -/
theorem isSome_of_planLane {o : Option LanePlan} (h : planLane p i = some o) : o.isSome = (byteAt p 1).getLsbD i.val := by
  rw [planLane_eq] at h
  split at h
  case isTrue present =>
    obtain ⟨m, -, same⟩ := Option.map_eq_some_iff.mp h
    rw [← same, present]
    rfl
  case isFalse absent =>
    cases h
    exact (Bool.eq_false_iff.mpr absent).symm

/-- The width a position allows, from the lanes of the plan (R2). -/
theorem allowedWidth_of_lanes {lanes : Vector (Option LanePlan) 4} {present : LanePos → Bool}
    (has : ∀ i : LanePos, lanes[i].isSome = present i) (i : LanePos) : allowedWidth present i = match i with
      | 0 => if lanes[(1 : LanePos)] = none ∧ lanes[(2 : LanePos)] = none ∧ lanes[(3 : LanePos)] = none then 4
             else if lanes[(1 : LanePos)] = none then 2 else 1
      | 1 => 1
      | 2 => if lanes[(3 : LanePos)] = none then 2 else 1
      | 3 => 1 := by
  have absent (j : LanePos) : ¬ present j = true ↔ lanes[j] = none := by
    rw [← has j, Option.not_isSome_iff_eq_none]
  match i with
  | 0 => simp only [allowedWidth, absent]
  | 1 => rfl
  | 2 => simp only [allowedWidth, absent]
  | 3 => rfl

theorem planLane_isSome (i : LanePos) (good : (byteAt p 1).getLsbD i.val = true →
    ((byteAt p (4 + i.val)).extractLsb' 4 3).toNat ∈ [1, 2, 4] ∧ (byteAt p (4 + i.val)).extractLsb' 2 2 = 0) :
    ∃ o, planLane p i = some o := by
  rw [planLane_eq]
  cases present : (byteAt p 1).getLsbD i.val with
  | false => exact ⟨none, rfl⟩
  | true =>
    obtain ⟨wide, reserved⟩ := good present
    rw [laneOf_eq_some.mpr ⟨wide, reserved, rfl⟩]
    exact ⟨_, rfl⟩

/-- A payload whose fields are all in range is that of a plan (R6, R176). -/
theorem planOf_isSome (length : p.length = 8) (letter : letterOf (byteAt p 0) = some q) (reserved : (byteAt p 1).extractLsb' 5 3 = 0)
    (joined : ¬(q = .A ∧ (byteAt p 1).getLsbD 4 = true)) (half : (byteAt p 2).toNat ∈ halfLengths)
    (format : (byteAt p 3).extractLsb' 2 6 = 0) (lanes : ∀ i : LanePos, ∃ o, planLane p i = some o) : (planOf p).isSome = true := by
  obtain ⟨o0, lane0⟩ := lanes 0
  obtain ⟨o1, lane1⟩ := lanes 1
  obtain ⟨o2, lane2⟩ := lanes 2
  obtain ⟨o3, lane3⟩ := lanes 3
  rw [planOf, if_pos ⟨length, reserved, format, half⟩]
  simp only [letter, lane0, lane1, lane2, lane3]
  rw [if_neg joined]
  rfl

/-! ### The checks (R6, R7) -/

theorem exec_quadPlan (s : State) : exec .quadPlan s = .next (s.takeRequest .quadPlan quadPlan) := rfl

theorem quadPlan_bad (bad : planOf p = none) (s : State) : quadPlan p s = s.refuse .badValue := by
  simp only [quadPlan, bad]

theorem quadPlan_plan (h : planOf p = some (q, plan)) (s : State) : quadPlan p s =
    if (s.quad q).startedPlan.isSome then s.refuse .planFixed
    else if ¬ plan.anyLane then s.refuse .emptyPlan
    else if ¬ plan.joined ∧ ¬ plan.fits plan.halfLength then s.refuse .badFormat
    else (s.setQuad q (.planned plan)).accept
      [byteOf (plan.width 0), byteOf (plan.width 1), byteOf (plan.width 2), byteOf (plan.width 3)] := by
  simp only [quadPlan, h]

theorem anyLane_iff (plan : Plan) : plan.anyLane = true ↔ ∃ i : LanePos, plan.lanes[i] ≠ none := by
  simp only [Plan.anyLane, List.any_eq_true, allPositions, List.mem_finRange, true_and, Option.isSome_iff_ne_none]

theorem width_eq (plan : Plan) (i : LanePos) : plan.width i = (plan.lanes[i].map LanePlan.granted).getD 0 := by
  unfold Plan.width
  cases plan.lanes[i] with
  | none => rfl
  | some l => rfl

/-- Settles O20: the checks in their order, and the fields of a payload that is a plan's. -/
theorem quadPlanStoresThePlan : Obligations.QuadPlanStoresThePlan := by
  refine ⟨fun s f p ha => ⟨fun bad => ?_, fun q plan h => ?checks⟩, fun p q plan h => ?fields, fun p => ?complete⟩
  · exact congrArg Host.Outcome.next (takeRequest_refused ha (quadPlan_bad bad s.taken))
  case checks =>
    intro fits
    have run := quadPlan_plan h s.taken
    have started : (s.taken.quad q).startedPlan.isSome = true ↔ (s.quad q).startedPlan ≠ none := Option.isSome_iff_ne_none
    have empty : (∀ i : LanePos, plan.lanes[i] = none) ↔ ¬ plan.anyLane = true := by simp [anyLane_iff]
    have long : (¬ plan.joined = true ∧ ¬ plan.fits plan.halfLength = true) ↔ ¬ fits := by
      rw [fits_iff, ← not_or]
    rw [exec_quadPlan]
    refine ⟨fun fixed => ?_, fun free none_ => ?_, fun free some_ bad => ?_, fun free some_ ok => ?_⟩
    · exact congrArg Host.Outcome.next (takeRequest_refused ha (run.trans (if_pos (started.mpr fixed))))
    · rw [if_neg (mt started.mp (not_not_intro free)), if_pos (empty.mp none_)] at run
      exact congrArg Host.Outcome.next (takeRequest_refused ha run)
    · rw [if_neg (mt started.mp (not_not_intro free)), if_neg (not_not_intro ((anyLane_iff plan).mpr some_)), if_pos (long.mpr bad)] at run
      exact congrArg Host.Outcome.next (takeRequest_refused ha run)
    · rw [if_neg (mt started.mp (not_not_intro free)), if_neg (not_not_intro ((anyLane_iff plan).mpr some_)),
        if_neg (mt long.mp (not_not_intro ok)), width_eq, width_eq, width_eq, width_eq] at run
      exact congrArg Host.Outcome.next (takeRequest_accepted (l := s.link) ha run rfl)
  case fields =>
    obtain ⟨length, reserved, format, half, letter, lanes, apart, halfLength, delay, polarity, joined⟩ := planOf_some h
    have has (i : LanePos) : plan.lanes[i].isSome = (byteAt p 1).getLsbD i.val := isSome_of_planLane (lanes i)
    refine ⟨length, reserved, format, fun i present => ?_, byteOfLetter_of_letterOf letter, halfLength, halfLength ▸ half, delay, polarity,
      joined, fun join => ?_, has, fun i l lane => ?_⟩
    · obtain ⟨l, lane⟩ := Option.isSome_iff_exists.mp ((has i).trans present)
      obtain ⟨m, good, -⟩ := planLane_some ((lanes i).trans (congrArg some lane))
      exact (laneOf_eq_some.mp good).2.1
    · cases q with
      | A => exact absurd ⟨rfl, join⟩ apart
      | B => rfl
    · obtain ⟨m, good, granted⟩ := planLane_some ((lanes i).trans (congrArg some lane))
      obtain ⟨wide, -, rfl⟩ := laneOf_eq_some.mp good
      rw [granted]
      exact ⟨rfl, rfl, wide, wordLengthOf_bits _, congrArg (min _) (allowedWidth_of_lanes has i)⟩
  case complete =>
    intro length letter reserved joined half format lanes
    have all (i : LanePos) : ∃ o, planLane p i = some o := planLane_isSome i (lanes i)
    obtain zero | one := letter
    · refine planOf_isSome (q := .A) length (by rw [zero]; rfl) reserved ?_ half format all
      exact fun ⟨_, set⟩ => Bool.noConfusion ((joined zero).symm.trans set)
    · exact planOf_isSome (q := .B) length (by rw [one]; rfl) reserved (by simp) half format all

end Sys2Proof.Machine
end

section
/-! PROOFS. ROUTE, UNROUTE and DELAY edits, and void edits (R109, R115, R117, R118). -/

namespace Sys2Proof.Machine

variable {s : State} {x : CueContext} {c : Channel} {b o y z : BusId} {n : Nat} {target : Gain}

/-! ### Void edits and the others (R108, R109) -/

theorem applyEdit_void {e : Edit} (void : s.isVoid e = true) (x : CueContext) :
    s.applyEdit x e = s.pushFault (x.faultRecord .editVoid e.channel e.bus none) := by
  unfold State.applyEdit
  exact if_pos void

theorem applyEdit_gain (input : s.isInput c = true) (x : CueContext) (b : BusId) (target : Gain) :
    s.applyEdit x (.gain c b target) = s.applyGain x c b target := by
  simp [State.applyEdit, State.isVoid, input]

theorem applyEdit_drop (input : s.isInput c = true) (x : CueContext) (b : BusId) : s.applyEdit x (.drop c b) = s.applyDrop x c b := by
  simp [State.applyEdit, State.isVoid, input]

theorem applyEdit_route (present : s.route c ≠ .absent) (x : CueContext) (b : BusId) :
    s.applyEdit x (.route c b) = s.applyRoute x c b := by
  simp [State.applyEdit, State.isVoid, present]

theorem applyEdit_unroute (present : s.route c ≠ .absent) (x : CueContext) (b : BusId) :
    s.applyEdit x (.unroute c b) = s.applyUnroute c b := by
  simp [State.applyEdit, State.isVoid, present]

theorem isVoid_delay {d : Nat} : s.isVoid (.delay b d) = true ↔ ∀ l ∈ s.line b, l.length ≤ d := by
  cases line : s.line b with
  | none => simp [State.isVoid, line]
  | some l => simp [State.isVoid, line]

theorem applyUnroute_other (other : s.route c ≠ .owned b) : s.applyUnroute c b = s := if_neg other

/-! ### The route table (R55, R115, R117) -/

theorem setRoute_gain (free : s.route c = .free) (b : BusId) : s.setRoute c (.owned b) = { s with mix := { s.mix with
    routes := s.mix.routes.set c (.owned b), buses := s.mix.buses.set b { s.bus b with ownedCount := (s.bus b).ownedCount + 1 } } } := by
  simp only [State.setRoute, free, Route.owner]
  rfl

/-- A channel that leaves its owner for an entry without one. -/
theorem setRoute_lose (owned : s.route c = .owned o) {r : Route} (unowned : r.owner = none) : s.setRoute c r = { s with mix := { s.mix with
    routes := s.mix.routes.set c r, buses := s.mix.buses.set o { s.bus o with ownedCount := (s.bus o).ownedCount - 1 } } } := by
  simp only [State.setRoute, owned, unowned]
  rfl

theorem setRoute_clashed (clashed : s.route c = .clashed y z) {r : Route} (unowned : r.owner = none) :
    s.setRoute c r = { s with mix := { s.mix with routes := s.mix.routes.set c r } } := by
  simp only [State.setRoute, clashed, unowned]
  rfl

theorem applyRoute_free (free : s.route c = .free) (x : CueContext) (b : BusId) : s.applyRoute x c b = s.setRoute c (.owned b) := by
  simp only [State.applyRoute, free]

theorem applyRoute_own (owned : s.route c = .owned b) (x : CueContext) : s.applyRoute x c b = s := by
  simp only [State.applyRoute, owned, if_true]

/-- A second bus that is routed to a channel clashes with its owner (R115). -/
theorem applyRoute_owned (owned : s.route c = .owned o) (other : o ≠ b) (x : CueContext) : s.applyRoute x c b =
    (s.setRoute c (.clashed o b)).pushFault (x.faultRecord .clash (some c) o (some b)) := by
  simp only [State.applyRoute, owned, other, if_false]

theorem applyRoute_clashed (clashed : s.route c = .clashed y z) (x : CueContext) (b : BusId) : s.applyRoute x c b =
    (s.setRoute c (.clashed z b)).pushFault (x.faultRecord .clash (some c) z (some b)) := by
  simp only [State.applyRoute, clashed]

/-- Settles O41: the two edits of a route by the entry's state, DELAY by the bus's line, and each void edit. -/
theorem routeDelayAndVoidEdits : Obligations.RouteDelayAndVoidEdits := by
  intro s x c b n target lose clash void
  refine ⟨fun free => ⟨?_, ?_⟩, fun owned => ⟨?_, ?_⟩, fun o owned other => ⟨?_, ?_⟩, fun y z clashed => ⟨?_, ?_⟩, fun absent => ⟨?_, ?_⟩,
    fun output => ⟨?_, ?_⟩, fun l line short => ?_, fun long => ?_⟩
  · rw [applyEdit_route (by simp [free]), applyRoute_free free, setRoute_gain free]
  · rw [applyEdit_unroute (by simp [free]), applyUnroute_other (by simp [free])]
  · rw [applyEdit_route (by simp [owned]), applyRoute_own owned]
  · rw [applyEdit_unroute (by simp [owned]), State.applyUnroute, if_pos owned, setRoute_lose owned rfl]
  · rw [applyEdit_route (by simp [owned]), applyRoute_owned owned other, setRoute_lose owned rfl]
    rfl
  · rw [applyEdit_unroute (by simp [owned]), applyUnroute_other (by simp [owned, other])]
  · rw [applyEdit_route (by simp [clashed]), applyRoute_clashed clashed, setRoute_clashed clashed rfl]
    rfl
  · rw [applyEdit_unroute (by simp [clashed]), applyUnroute_other (by simp [clashed])]
  · exact applyEdit_void (by simp [State.isVoid, absent]) x
  · exact applyEdit_void (by simp [State.isVoid, absent]) x
  · exact applyEdit_void (by simp [State.isVoid, output]) x
  · exact applyEdit_void (by simp [State.isVoid, output]) x
  · have valid : ¬ s.isVoid (.delay b n) = true := fun void => by
      have := isVoid_delay.mp void l line
      omega
    rw [State.applyEdit, if_neg valid, State.applyDelay, line]
    rfl
  · exact applyEdit_void (isVoid_delay.mpr long) x

end Sys2Proof.Machine
end

section
/-! PROOFS. GAIN and DROP edits that are not void (R50, R110 to R114). -/

namespace Sys2Proof.Machine

variable {s t u : State} {x : CueContext} {e f : Entry} {c : Channel} {b : BusId}

/-! ### A ramp that is taken over (R100, R112, R113) -/

/-- The cue list when the cue of a context owns its new ramp, if it makes one (R85). -/
def CueContext.raised (x : CueContext) (cues : List Cue) : List Cue :=
  if x.rampLength = 0 then cues else cues.map fun d => if d.tag = x.tag then { d with outstanding := d.outstanding + 1 } else d

theorem ownRamp_cues (s : State) (x : CueContext) : (s.ownRamp x).cues = x.raised s.cues := by
  unfold State.ownRamp CueContext.raised
  split
  case isTrue => rfl
  case isFalse => rfl

/-- The cue of another tag is not touched by a new ramp. -/
theorem mem_raised_of_other {cues : List Cue} {d : Cue} (other : d.tag ≠ x.tag) : d ∈ x.raised cues ↔ d ∈ cues := by
  unfold CueContext.raised
  split
  case isTrue => exact Iff.rfl
  case isFalse =>
    constructor
    · intro h
      obtain ⟨d', hd', rfl⟩ := List.mem_map.mp h
      by_cases same : d'.tag = x.tag
      · rw [if_pos same] at other
        exact absurd same other
      · rwa [if_neg same]
    · exact fun h => List.mem_map.mpr ⟨d, h, if_neg other⟩

theorem raised_tags (x : CueContext) (cues : List Cue) : (x.raised cues).map Cue.tag = cues.map Cue.tag := by
  unfold CueContext.raised
  split
  case isTrue => rfl
  case isFalse =>
    rw [List.map_map]
    refine List.map_congr_left fun d _ => ?_
    simp only [Function.comp_apply]
    split
    · rfl
    · rfl

/-- The loss of a ramp that an edit takes over, in the words of the statements (R113). -/
theorem takesOver_of_loses (cues : u.cues = x.raised s.cues) (link : u.link = s.link) (passes : u.mix.passes = s.mix.passes)
    (loses : t.cues = (u.loseRamp e (some x.tag)).cues ∧ t.link = (u.loseRamp e (some x.tag)).link) : s.TakesOver x e t := by
  obtain ⟨tc, tl⟩ := loses
  refine ⟨fun steady => ?_, fun y owner => ⟨fun stays => ?_, fun d hd tag other distinct applying last => ?_⟩⟩
  · rw [loseRamp_none steady] at tc tl
    exact ⟨tc.trans cues, tl.trans link⟩
  · rw [loseRamp_some owner] at tc tl
    obtain ⟨d, ⟨found, may, applying, few⟩, -⟩ | ⟨-, lowers⟩ := lowerRamps_cases u y (decide (some x.tag ≠ some y))
    · have other : y ≠ x.tag := fun same => of_decide_eq_true may (congrArg some same.symm)
      obtain ⟨mem, rfl⟩ := findCue_some found
      rw [cues, mem_raised_of_other other] at mem
      have many := stays.resolve_left other d mem rfl applying
      omega
    · rw [lowers] at tc tl
      exact ⟨tc.trans (congrArg (lowered y) cues), tl.trans link⟩
  · rw [loseRamp_some owner] at tc tl
    subst tag
    have mem : d ∈ u.cues := cues ▸ (mem_raised_of_other other).mpr hd
    have distinct' : u.TagsDistinct := by
      rw [State.TagsDistinct, cues, raised_tags]
      exact distinct
    have found := findCue_eq distinct' mem
    obtain ⟨d', ⟨found', -⟩, completes⟩ | ⟨never, -⟩ := lowerRamps_cases u d.tag (decide (some x.tag ≠ some d.tag))
    · obtain rfl := Option.some.inj (found'.symm.trans found)
      rw [completes] at tc tl
      rw [chained_congr passes] at tc
      refine ⟨tc.trans ?_, tl.trans ?_⟩
      · exact congrArg (fun cs => ((lowered d'.tag cs).filter fun c => decide (c.tag ≠ d'.tag)).map (s.chained [d'.tag])) cues
      · exact congrArg (fun l => l.occur .cueDone (.cueDone d'.group d'.tag)) link
    · exact absurd ⟨found, decide_eq_true fun same => other (Option.some.inj same).symm, applying, Nat.le_of_eq last⟩ (never d)

/-! ### A replaced, a new and a removed entry (R110 to R114) -/

/-- An edit that replaces the entry of a pair (R112, R113). -/
theorem replaceEntry_leaves (order : s.TableInOrder) (x : CueContext) (e : Entry) (hc : f.channel = c) (hb : f.bus = b)
    (ht : t = ((s.putEntry f).ownRamp x).loseRamp e (some x.tag)) :
    (∀ d a, xpFind t.mix.xp d a = if d = c ∧ a = b then some f else xpFind s.mix.xp d a) ∧
    (∀ a, t.bus a = s.bus a) ∧ t.faults = s.faults ∧ t.mix.routes = s.mix.routes ∧ t.mem = s.mem ∧ s.TakesOver x e t := by
  have xp : t.mix.xp = xpPut f s.mix.xp := by
    rw [ht]
    simp [State.putEntry]
  refine ⟨fun d a => ?_, fun a => ?_, ?_, ?_, ?_, ?_⟩
  · rw [xp, xpFind_put order, hc, hb]
  · rw [ht, loseRamp_bus, ownRamp_bus]
    rfl
  · rw [ht]
    simp
  · rw [ht]
    simp
  · rw [ht]
    simp
  · refine takesOver_of_loses (u := (s.putEntry f).ownRamp x) ?_ (by simp) (by simp) (by rw [ht]; exact ⟨rfl, rfl⟩)
    rw [ownRamp_cues, (putEntry_frame (s := s) f).2.2.2.2.2.2.2.2.1]

/-- A GAIN edit that makes an entry (R110, R111). -/
theorem newEntry_leaves (order : s.TableInOrder) (x : CueContext) (hc : f.channel = c) (hb : f.bus = b)
    (ht : t = ((s.putEntry f).raiseEntries b).ownRamp x) :
    (∀ d a, xpFind t.mix.xp d a = if d = c ∧ a = b then some f else xpFind s.mix.xp d a) ∧
    (∀ a, t.bus a = if a = b then { s.bus a with entryCount := (s.bus a).entryCount + 1 } else s.bus a) ∧
    t.faults = s.faults ∧ t.link = s.link ∧ t.mix.routes = s.mix.routes ∧ t.mem = s.mem ∧ t.cues = x.raised s.cues := by
  have xp : t.mix.xp = xpPut f s.mix.xp := by
    rw [ht]
    simp [State.putEntry]
  refine ⟨fun d a => ?_, fun a => ?_, ?_, ?_, ?_, ?_, ?_⟩
  · rw [xp, xpFind_put order, hc, hb]
  · rw [ht, ownRamp_bus, State.raiseEntries, modifyBus_bus]
    by_cases same : a = b
    · rw [if_pos same, if_pos same, same]
      rfl
    · rw [if_neg same, if_neg same]
      rfl
  · rw [ht]
    simp
  · rw [ht]
    simp
  · rw [ht]
    simp
  · rw [ht]
    simp
  · rw [ht, ownRamp_cues]
    simp

/-- A DROP edit with ramp length 0 removes the entry at once (R114). -/
theorem removeEntry_leaves (now : x.rampLength = 0) (hc : e.channel = c) (hb : e.bus = b) (ht : t = s.removeEntry e (some x.tag)) :
    (∀ d a, xpFind t.mix.xp d a = if d = c ∧ a = b then none else xpFind s.mix.xp d a) ∧
    (∀ a, t.bus a = if a = b then { s.bus a with entryCount := (s.bus a).entryCount - 1 } else s.bus a) ∧
    t.faults = s.faults ∧ t.mix.routes = s.mix.routes ∧ t.mem = s.mem ∧ s.TakesOver x e t := by
  refine ⟨fun d a => ?_, fun a => ?_, ?_, ?_, ?_, ?_⟩
  · rw [ht, removeEntry_xp, xpFind_remove, hc, hb]
  · rw [ht, removeEntry_bus, hb]
  · rw [ht]
    simp
  · rw [ht]
    simp
  · rw [ht]
    simp
  · refine takesOver_of_loses (u := s) (if_pos now).symm rfl rfl ?_
    rw [ht]
    exact loseRamp_congr (by simp) (by simp) (by simp) e (some x.tag)

/-! ### The edits -/

theorem applyGain_full (none_ : xpFind s.mix.xp c b = none) (full : ¬ s.mix.xp.length < 96) (x : CueContext) (target : Gain) :
    s.applyGain x c b target = s.pushFault (x.faultRecord .xpFull (some c) b none) := by
  simp only [State.applyGain, none_, Config.maxEntries, full, if_false]

theorem applyGain_new (none_ : xpFind s.mix.xp c b = none) (room : s.mix.xp.length < 96) (x : CueContext) (target : Gain) :
    s.applyGain x c b target = ((s.putEntry (if x.rampLength = 0 then { channel := c, bus := b, gain := target, state := .steady }
      else { channel := c, bus := b, gain := 0, state := .ramping (x.newRamp 0 target) })).raiseEntries b).ownRamp x := by
  simp only [State.applyGain, none_, Config.maxEntries, room, if_true]

theorem applyGain_entry (found : xpFind s.mix.xp c b = some e) (x : CueContext) (target : Gain) : s.applyGain x c b target =
    ((s.putEntry (if x.rampLength = 0 then { e with gain := target, state := .steady }
      else { e with state := .ramping (x.newRamp e.gain target) })).ownRamp x).loseRamp e (some x.tag) := by
  simp only [State.applyGain, found]

theorem applyDrop_none (none_ : xpFind s.mix.xp c b = none) (x : CueContext) : s.applyDrop x c b = s := by
  simp only [State.applyDrop, none_]

theorem applyDrop_entry (found : xpFind s.mix.xp c b = some e) (x : CueContext) : s.applyDrop x c b =
    if x.rampLength = 0 then s.removeEntry e (some x.tag)
    else ((s.putEntry { e with state := .fading (x.newRamp e.gain 0) }).ownRamp x).loseRamp e (some x.tag) := by
  simp only [State.applyDrop, found]

/-- Settles O40: a pair without an entry, and a pair with one, whose entry is replaced or removed. -/
theorem gainAndDropEdits : Obligations.GainAndDropEdits := by
  intro s x c b target input order ramp
  refine ⟨fun none_ => ⟨?_, fun full => ?_, fun room => ?_⟩, fun e found => ⟨?_, ?_⟩⟩
  · rw [applyEdit_drop input, applyDrop_none none_]
  · rw [applyEdit_gain input, applyGain_full none_ (Nat.not_lt.mpr full)]
    rfl
  · refine newEntry_leaves order x ?_ ?_ ((applyEdit_gain input x b target).trans (applyGain_new none_ room x target))
    · split
      · rfl
      · rfl
    · split
      · rfl
      · rfl
  · obtain ⟨-, hc, hb⟩ := xpFind_some found
    refine replaceEntry_leaves order x e ?_ ?_ ((applyEdit_gain input x b target).trans (applyGain_entry found x target))
    · split
      · exact hc
      · exact hc
    · split
      · exact hb
      · exact hb
  · obtain ⟨-, hc, hb⟩ := xpFind_some found
    have drop := (applyEdit_drop input x b).trans (applyDrop_entry found x)
    by_cases now : x.rampLength = 0
    · rw [if_pos now] at drop
      simp only [now, if_true, and_true]
      exact removeEntry_leaves now hc hb drop
    · rw [if_neg now] at drop
      simp only [now, if_false, and_false]
      exact replaceEntry_leaves order x e hc hb drop

end Sys2Proof.Machine
end

section
/-! PROOFS. CUE_START takes the due cues, and what becomes of a cue that is taken (R65, R87, R98, R100, R120). -/

namespace Sys2Proof.Machine

variable {s t u : State} {g : GroupId} {n : FrameNo} {p : Pass} {c d : Cue} {x : Byte}

/-! ### The event (R64, R65) -/

theorem exec_cueStart (s : State) (g : GroupId) : exec (.cueStart g) s = execCueStart g s := rfl

theorem passAt_eq {stage : Stage} (pass : s.pass g = some p) (here : p.stage = stage) : s.passAt g stage = some p := by
  simp only [State.passAt, pass, here, if_true]

theorem cueStart_going (pass : s.pass g = some p) (stage : p.stage = .cueStart) (some_ : p.buses ≠ []) : exec (.cueStart g) s = .next
    (((s.dueTags g p.frame).foldl (State.takeCue g p.frame) s).modifyPass g fun q => { q with stage := .gainStep }) := by
  rw [exec_cueStart, execCueStart, passAt_eq pass stage]
  exact congrArg Host.Outcome.next (if_neg (by simpa using some_))

theorem cueStart_ends (pass : s.pass g = some p) (stage : p.stage = .cueStart) (none_ : p.buses = []) : exec (.cueStart g) s = .next
    (((s.dueTags g p.frame).foldl (State.takeCue g p.frame) s).endPass g) := by
  rw [exec_cueStart, execCueStart, passAt_eq pass stage]
  exact congrArg Host.Outcome.next (if_pos (by simpa using none_))

/-! ### Edits leave the pool (R87) -/

theorem releaseHolds_eq (s : State) (es : List Edit) :
    s.releaseHolds es = { s with mix := { s.mix with buses := (s.releaseHolds es).mix.buses } } := by
  obtain ⟨pending, resetHeld, straps, lane, word, xp, routes, passes, cues, mem, link, faults, pins, free⟩ := releaseHolds_frame (s := s) es
  exact State.eq_of_fields pending resetHeld straps lane word (MixEngine.eq_of_fields rfl xp routes passes) cues mem link faults pins free

/-! ### The cue that an edit is applied for stays (R113) -/

/-- An edit does not take its own cue out of the list, not even when that cue's ramps go. -/
theorem applyEdit_keepsCue (s : State) (x : CueContext) (e : Edit) (here : x.tag ∈ s.cues.map Cue.tag) :
    x.tag ∈ (s.applyEdit x e).cues.map Cue.tag := by
  have idents {cs ds : List Cue} (same : ds.map Cue.ident = cs.map Cue.ident) : ds.map Cue.tag = cs.map Cue.tag :=
    map_eq_of_idents same Cue.tag fun _ => rfl
  have loses (v : State) (f : Entry) (stands : x.tag ∈ v.cues.map Cue.tag) : x.tag ∈ (v.loseRamp f (some x.tag)).cues.map Cue.tag := by
    obtain same | ⟨c, -, -, other, same⟩ := loseRamp_idents v f (some x.tag)
    · rwa [idents same]
    · rw [idents same]
      obtain ⟨d, hd, tag⟩ := List.mem_map.mp stands
      refine List.mem_map.mpr ⟨d, List.mem_filter.mpr ⟨hd, decide_eq_true fun eq => other (congrArg some ?_)⟩, tag⟩
      exact tag.symm.trans eq
  have owns (v : State) (stands : x.tag ∈ v.cues.map Cue.tag) : x.tag ∈ (v.ownRamp x).cues.map Cue.tag := by
    rwa [ownRamp_cues, raised_tags]
  have effect := applyEdit_effect s x e
  generalize s.applyEdit x e = t at effect ⊢
  obtain same | ⟨_, _, _⟩ | ⟨_, _⟩ | ⟨_⟩ := effect
  · rwa [same.cues]
  · exact owns _ here
  · exact loses _ _ (owns _ here)
  · exact loses _ _ here

/-- The edits of a cue, applied one after another, keep it in the list. -/
theorem applyEdits_keepsCue (x : CueContext) (es : List Edit) (here : x.tag ∈ s.cues.map Cue.tag) :
    x.tag ∈ (es.foldl (fun v e => v.applyEdit x e) s).cues.map Cue.tag :=
  foldl_preserves (P := fun v : State => x.tag ∈ v.cues.map Cue.tag) (fun v e => applyEdit_keepsCue v x e) es here

/-! ### A cue that is taken (R98, R120) -/

/-- The state when the edits of a cue have been applied, before it completes or stays. -/
def State.edited (s : State) (g : GroupId) (n : FrameNo) (c : Cue) : State :=
  c.edits.foldl (fun v e => v.applyEdit { group := g, frame := n, tag := c.tag, rampLength := c.rampLength } e) (s.beginApplying c)

/-- A taken cue is in the list when its edits have been applied, and completes if it then owns no ramp (R120). -/
theorem takeCue_edited (found : s.findCue x = some c) (g : GroupId) (n : FrameNo) : ∃ d, (s.edited g n c).findCue c.tag = some d ∧
    s.takeCue g n x = if d.outstanding = 0 then (s.edited g n c).completeCue c.tag else s.edited g n c := by
  obtain ⟨mem, rfl⟩ := findCue_some found
  have here : c.tag ∈ (s.beginApplying c).cues.map Cue.tag := by
    rw [beginApplying_cues, List.map_map]
    exact List.mem_map.mpr ⟨c, mem, applied_tag c.tag c⟩
  have still : c.tag ∈ (s.edited g n c).cues.map Cue.tag :=
    applyEdits_keepsCue { group := g, frame := n, tag := c.tag, rampLength := c.rampLength } c.edits here
  have taken : s.takeCue g n c.tag = match (s.edited g n c).findCue c.tag with
      | some d => if d.outstanding = 0 then (s.edited g n c).completeCue c.tag else s.edited g n c
      | none => s.edited g n c := by
    simp only [State.takeCue, found]
    rfl
  cases again : (s.edited g n c).findCue c.tag with
  | none =>
    obtain ⟨d, hd, tag⟩ := List.mem_map.mp still
    exact absurd tag (findCue_none.mp again d hd)
  | some d =>
    rw [again] at taken
    exact ⟨d, rfl, taken⟩

theorem beginApplying_eq (s : State) (c : Cue) : s.beginApplying c = { (s.releaseHolds c.edits) with
    cues := s.cues.map fun d => if d.tag = c.tag then { d with state := .applying, edits := [], armed := false } else d } := by
  have cues : (s.releaseHolds c.edits).cues = s.cues := by simp
  rw [State.beginApplying, State.modifyCue, cues]
  rfl

/-- Settles O39: the fold over the due cues, the cue that is taken, its completion, and its edits leaving the pool. -/
theorem takenCuesApplyAndComplete : Obligations.TakenCuesApplyAndComplete := by
  refine ⟨fun s g p pass stage => ⟨cueStart_going pass stage, cueStart_ends pass stage⟩, fun s g n c mem distinct => ?taken,
    fun s c mem distinct => ?completes, fun s es => ⟨releaseHolds_eq s es, releaseHolds_bus s es⟩⟩
  case taken =>
    intro x taken u
    have edited : s.edited g n c = u := by
      rw [State.edited, beginApplying_eq]
    obtain ⟨d, found, outcome⟩ := takeCue_edited (findCue_eq distinct mem) g n
    rw [edited] at found outcome
    obtain ⟨stands, tag⟩ := findCue_some found
    refine ⟨d, stands, tag, fun owns => ?_, fun none_ => ?_⟩
    · rw [outcome, if_neg owns]
    · rw [outcome, if_pos none_]
  case completes => exact completeCue_eq (findCue_eq distinct mem)

end Sys2Proof.Machine
end

section
/-! PROOFS. What becomes of the cues while CUE_START takes the due ones (R65, R98 to R100). -/

namespace Sys2Proof.Machine

variable {s t u : State} {g : GroupId} {n : FrameNo} {p : Pass} {c d : Cue} {x y : Byte} {cs ds es : List Cue} {taken : List Byte}

/-! ### A cue list that follows another -/

/-- The cue has been taken: it is APPLYING and its edits have left the pool (R98). -/
abbrev Cue.Taken (c : Cue) : Prop := c.state = .applying ∧ c.edits = []

/-- A waiting cue that goes on waiting: an AFTER trigger may have become NEXT (R99). -/
structure Cue.WaitsOn (c d : Cue) : Prop where
  tag : d.tag = c.tag
  state : d.state = .waiting
  edits : d.edits = c.edits
  armed : d.armed = c.armed
  trigger : d.trigger = c.trigger ∨ ∃ x, c.trigger = .after x ∧ d.trigger = .next

/-- The cue is the one there was, with its group and ramp length, and has been taken if that one had. -/
structure Cue.ComesFrom (d c : Cue) : Prop where
  tag : c.tag = d.tag
  group : c.group = d.group
  rampLength : c.rampLength = d.rampLength
  taken : c.Taken → d.Taken

/-- The list after steps in which no cue but those of some tags is taken: every cue comes from one there was,
and the cues that waited and are not taken go on waiting. -/
structure CuesFollow (taken : List Byte) (cs ds : List Cue) : Prop where
  tags : (ds.map Cue.tag).Sublist (cs.map Cue.tag)
  source : ∀ d ∈ ds, ∃ c ∈ cs, d.ComesFrom c
  waiting : ∀ c ∈ cs, c.state = .waiting → c.tag ∉ taken → ∃ d ∈ ds, c.WaitsOn d

theorem Cue.WaitsOn.refl (waiting : c.state = .waiting) : c.WaitsOn c := ⟨rfl, waiting, rfl, rfl, .inl rfl⟩

theorem Cue.WaitsOn.trans {e : Cue} (h : c.WaitsOn d) (k : d.WaitsOn e) : c.WaitsOn e := by
  refine ⟨k.tag.trans h.tag, k.state, k.edits.trans h.edits, k.armed.trans h.armed, ?_⟩
  obtain same | ⟨x, after, next⟩ := h.trigger
  · rw [← same]
    exact k.trigger
  · obtain same | ⟨y, after', -⟩ := k.trigger
    · exact .inr ⟨x, after, same.trans next⟩
    · cases next.symm.trans after'

theorem Cue.ComesFrom.refl (c : Cue) : c.ComesFrom c := ⟨rfl, rfl, rfl, id⟩

theorem Cue.ComesFrom.trans {e : Cue} (h : d.ComesFrom c) (k : e.ComesFrom d) : e.ComesFrom c :=
  ⟨h.tag.trans k.tag, h.group.trans k.group, h.rampLength.trans k.rampLength, fun done => k.taken (h.taken done)⟩

theorem CuesFollow.refl (taken : List Byte) (cs : List Cue) : CuesFollow taken cs cs :=
  ⟨List.Sublist.refl _, fun d hd => ⟨d, hd, .refl d⟩, fun c hc waiting _ => ⟨c, hc, .refl waiting⟩⟩

theorem CuesFollow.trans (h : CuesFollow taken cs ds) (k : CuesFollow taken ds es) : CuesFollow taken cs es := by
  refine ⟨k.tags.trans h.tags, fun e he => ?_, fun c hc waiting free => ?_⟩
  · obtain ⟨d, hd, kd⟩ := k.source e he
    obtain ⟨c, hc, hd'⟩ := h.source d hd
    exact ⟨c, hc, hd'.trans kd⟩
  · obtain ⟨d, hd, wd⟩ := h.waiting c hc waiting free
    obtain ⟨e, he, we⟩ := k.waiting d hd wd.state (wd.tag.symm ▸ free)
    exact ⟨e, he, wd.trans we⟩

theorem CuesFollow.mono {more : List Byte} (h : CuesFollow taken cs ds) (sub : ∀ x ∈ taken, x ∈ more) : CuesFollow more cs ds :=
  ⟨h.tags, h.source, fun c hc waiting free => h.waiting c hc waiting fun mem => free (sub _ mem)⟩

theorem CuesFollow.nodup (h : CuesFollow taken cs ds) (distinct : (cs.map Cue.tag).Nodup) : (ds.map Cue.tag).Nodup :=
  distinct.sublist h.tags

/-- A change of each record on its own. -/
theorem cuesFollow_map {f : Cue → Cue} (source : ∀ c, (f c).ComesFrom c)
    (waiting : ∀ c : Cue, c.state = .waiting → c.tag ∉ taken → c.WaitsOn (f c)) : CuesFollow taken cs (cs.map f) := by
  refine ⟨?_, fun d hd => ?_, fun c hc wait free => ⟨f c, List.mem_map_of_mem hc, waiting c wait free⟩⟩
  · have tags : (cs.map f).map Cue.tag = cs.map Cue.tag :=
      (List.map_map ..).trans (List.map_congr_left fun c _ => (source c).tag.symm)
    exact tags ▸ List.Sublist.refl _
  · obtain ⟨c, hc, rfl⟩ := List.mem_map.mp hd
    exact ⟨c, hc, source c⟩

/-- A cue that leaves, having waited no more. -/
theorem cuesFollow_filter (gone : ∀ c ∈ cs, c.tag = x → c.state = .waiting → x ∈ taken) :
    CuesFollow taken cs (cs.filter fun d => decide (d.tag ≠ x)) := by
  refine ⟨List.filter_sublist.map _, fun d hd => ⟨d, (List.mem_filter.mp hd).1, .refl d⟩, fun c hc waiting free => ?_⟩
  exact ⟨c, List.mem_filter.mpr ⟨hc, decide_eq_true fun tag => free (tag ▸ gone c hc tag waiting)⟩, .refl waiting⟩

/-! ### The operations of a cue start -/

theorem chained_comesFrom (s : State) (done : List Byte) (c : Cue) : (s.chained done c).ComesFrom c := by
  unfold State.chained
  split
  · split
    · exact ⟨rfl, rfl, rfl, id⟩
    · exact .refl c
  · exact .refl c

/-- A completion turns AFTER into NEXT, and changes no other trigger (R99). -/
theorem chained_waitsOn (s : State) (done : List Byte) (waiting : c.state = .waiting) : c.WaitsOn (s.chained done c) := by
  by_cases h : ∃ x ∈ done, c.state = .waiting ∧ c.trigger = .after x
  · obtain ⟨x, hx, hw, ht⟩ := h
    rw [chained_dependent hw ht hx]
    exact ⟨rfl, hw, rfl, rfl, .inr ⟨x, ht, rfl⟩⟩
  · rw [chained_other fun x hx hw ht => h ⟨x, hx, hw, ht⟩]
    exact .refl waiting

theorem follows_chained (s : State) (done : List Byte) (cs : List Cue) : CuesFollow taken cs (cs.map (s.chained done)) :=
  cuesFollow_map (chained_comesFrom s done) fun _ waiting _ => chained_waitsOn s done waiting

theorem follows_lowered (x : Byte) (cs : List Cue) : CuesFollow taken cs (lowered x cs) := by
  refine cuesFollow_map (fun c => ?_) fun c waiting _ => ?_
  · split
    · exact ⟨rfl, rfl, rfl, id⟩
    · exact .refl c
  · split
    · exact ⟨rfl, waiting, rfl, rfl, .inl rfl⟩
    · exact .refl waiting

theorem follows_raised (x : CueContext) (cs : List Cue) : CuesFollow taken cs (x.raised cs) := by
  unfold CueContext.raised
  split
  case isTrue => exact .refl taken cs
  case isFalse =>
    refine cuesFollow_map (fun c => ?_) fun c waiting _ => ?_
    · split
      · exact ⟨rfl, rfl, rfl, id⟩
      · exact .refl c
    · split
      · exact ⟨rfl, waiting, rfl, rfl, .inl rfl⟩
      · exact .refl waiting

/-- A lost ramp completes an APPLYING cue at most (R113). -/
theorem follows_loseRamp (distinct : s.TagsDistinct) (e : Entry) (ap : Option Byte) : CuesFollow taken s.cues (s.loseRamp e ap).cues := by
  cases owner : e.owner with
  | none =>
    rw [loseRamp_none owner]
    exact .refl taken _
  | some x =>
    rw [loseRamp_some owner]
    obtain ⟨c, ⟨found, -, applying, -⟩, eq⟩ | ⟨-, eq⟩ := lowerRamps_cases s x (decide (ap ≠ some x))
    · rw [eq]
      refine (follows_lowered x s.cues).trans (CuesFollow.trans (cuesFollow_filter fun d hd tag waiting => ?_) (follows_chained s [x] _))
      obtain ⟨mem, rfl⟩ := findCue_some found
      obtain ⟨d', hd', rfl⟩ := lowered_mem hd
      rw [lowered_tag] at tag
      rw [if_pos tag, eq_of_tag_eq distinct hd' mem tag] at waiting
      cases waiting.symm.trans applying
    · rw [eq]
      exact follows_lowered x s.cues

theorem follows_applyEdit (distinct : s.TagsDistinct) (x : CueContext) (e : Edit) : CuesFollow taken s.cues (s.applyEdit x e).cues := by
  have owns (v : State) : CuesFollow taken v.cues (v.ownRamp x).cues := by
    rw [ownRamp_cues]
    exact follows_raised x v.cues
  have effect := applyEdit_effect s x e
  generalize s.applyEdit x e = t at effect ⊢
  cases effect
  case same same =>
    rw [same.cues]
    exact .refl taken _
  case grow f _ _ _ => exact owns ((s.putEntry f).raiseEntries f.bus)
  case replace e f _ _ =>
    have owned : CuesFollow taken s.cues ((s.putEntry f).ownRamp x).cues := owns (s.putEntry f)
    exact owned.trans (follows_loseRamp (owned.nodup distinct) e (some x.tag))
  case remove e _ =>
    exact follows_loseRamp (s := (s.setXp (xpRemove s.mix.xp e.channel e.bus)).lowerEntries e.bus) distinct e (some x.tag)

theorem follows_applyEdits (distinct : s.TagsDistinct) (x : CueContext) (edits : List Edit) :
    CuesFollow taken s.cues (edits.foldl (fun v e => v.applyEdit x e) s).cues := by
  induction edits generalizing s with
  | nil => exact .refl taken _
  | cons e rest ih =>
    have first : CuesFollow taken s.cues (s.applyEdit x e).cues := follows_applyEdit distinct x e
    exact first.trans (ih (first.nodup distinct))

theorem follows_begin (s : State) (c : Cue) : CuesFollow [c.tag] s.cues (s.beginApplying c).cues := by
  rw [beginApplying_cues]
  refine cuesFollow_map (fun d => ?_) fun d waiting free => ?_
  · split
    · exact ⟨rfl, rfl, rfl, fun _ => ⟨rfl, rfl⟩⟩
    · exact .refl d
  · rw [if_neg fun tag => free (List.mem_singleton.mpr tag)]
    exact .refl waiting

/-- A completed cue leaves the list, and its dependents become NEXT (R100). -/
theorem follows_completeCue (s : State) (x : Byte) : CuesFollow [x] s.cues (s.completeCue x).cues := by
  cases found : s.findCue x with
  | none =>
    rw [completeCue_none found]
    exact .refl _ _
  | some c =>
    rw [completeCue_eq found, show (Cue.convert x fun g => (s.pass g).isSome) = s.chained [x] from funext fun c => convert_eq_chained s x c]
    exact CuesFollow.trans (cuesFollow_filter fun _ _ _ _ => List.mem_singleton_self x) (follows_chained s [x] _)

/-- Taking a cue leaves every other waiting cue waiting, and the cue itself, if it is still there, taken (R98, R120). -/
theorem takeCue_follows (distinct : s.TagsDistinct) (g : GroupId) (n : FrameNo) (x : Byte) :
    CuesFollow [x] s.cues (s.takeCue g n x).cues ∧ ∀ d ∈ (s.takeCue g n x).cues, d.tag = x → d.Taken := by
  cases found : s.findCue x with
  | none =>
    have same : s.takeCue g n x = s := by rw [State.takeCue, found]
    rw [same]
    exact ⟨.refl _ _, fun d hd tag => absurd tag (findCue_none.mp found d hd)⟩
  | some c =>
    obtain ⟨-, rfl⟩ := findCue_some found
    have begun := follows_begin s c
    have edits : CuesFollow [c.tag] (s.beginApplying c).cues (s.edited g n c).cues :=
      follows_applyEdits (begun.nodup distinct) _ c.edits
    have ends : CuesFollow [c.tag] (s.edited g n c).cues (s.takeCue g n c.tag).cues := by
      obtain ⟨d, -, outcome⟩ := takeCue_edited found g n
      rw [outcome]
      split
      · exact follows_completeCue _ c.tag
      · exact .refl _ _
    refine ⟨begun.trans (edits.trans ends), fun d hd tag => ?_⟩
    obtain ⟨b, hb, from_⟩ := (edits.trans ends).source d hd
    rw [beginApplying_cues] at hb
    obtain ⟨a, -, rfl⟩ := List.mem_map.mp hb
    refine from_.taken ?_
    have own : a.tag = c.tag := (applied_tag c.tag a).symm.trans (from_.tag.trans tag)
    rw [if_pos own]
    exact ⟨rfl, rfl⟩

/-- The due cues taken one after another (R65). -/
theorem takeCues_follow (g : GroupId) (n : FrameNo) (tags : List Byte) (distinct : s.TagsDistinct) :
    CuesFollow tags s.cues (tags.foldl (State.takeCue g n) s).cues ∧
    ∀ d ∈ (tags.foldl (State.takeCue g n) s).cues, d.tag ∈ tags → d.Taken := by
  induction tags generalizing s with
  | nil => exact ⟨.refl _ _, fun _ _ tag => absurd tag List.not_mem_nil⟩
  | cons x rest ih =>
    obtain ⟨first, own⟩ := takeCue_follows distinct g n x
    obtain ⟨later, others⟩ := ih (first.nodup distinct)
    refine ⟨(first.mono fun y hy => by simp_all).trans (later.mono fun y hy => List.mem_cons_of_mem _ hy), fun d hd tag => ?_⟩
    rcases List.mem_cons.mp tag with same | tag
    · obtain ⟨c, hc, from_⟩ := later.source d hd
      exact from_.taken (own c hc (from_.tag.trans same))
    · exact others d hd tag

end Sys2Proof.Machine
end

section
/-! PROOFS. CUE_START: what the stage leaves alone, and what it makes of the cues and the pass (R64, R65). -/

namespace Sys2Proof.Machine

variable {s t : State} {g : GroupId} {n : FrameNo} {p : Pass}

theorem MemoryPort.eq_of_fields {m k : MemoryPort} (lines : m.lines = k.lines) (clearing : m.clearing = k.clearing) (readQ : m.readQ = k.readQ)
    (writeQ : m.writeQ = k.writeQ) (readWait : m.readWait = k.readWait) (writeWait : m.writeWait = k.writeWait)
    (openRow : m.openRow = k.openRow) (access : m.access = k.access) (refreshDue : m.refreshDue = k.refreshDue)
    (dram : m.dram = k.dram) : m = k := by
  cases m
  cases k
  cases lines; cases clearing; cases readQ; cases writeQ; cases readWait; cases writeWait; cases openRow; cases access; cases refreshDue
  cases dram
  rfl

/-- Of the memory port the due cues change the lines alone, by their DELAY edits (R118). -/
theorem takeCues_mem (g : GroupId) (n : FrameNo) (tags : List Byte) (s : State) :
    (tags.foldl (State.takeCue g n) s).mem = { s.mem with lines := (tags.foldl (State.takeCue g n) s).mem.lines } := by
  have kept := takeCues_keeps g n tags s
  refine MemoryPort.eq_of_fields rfl ?_ kept.readQ kept.writeQ ?_ ?_ ?_ kept.access ?_ kept.dram
  · exact foldl_proj _ (fun v : State => v.mem.clearing) (fun v x => by simp) _ _
  · exact foldl_proj _ (fun v : State => v.mem.readWait) (fun v x => by simp) _ _
  · exact foldl_proj _ (fun v : State => v.mem.writeWait) (fun v x => by simp) _ _
  · exact foldl_proj _ (fun v : State => v.mem.openRow) (fun v x => by simp) _ _
  · exact foldl_proj _ (fun v : State => v.mem.refreshDue) (fun v x => by simp) _ _

/-- The stage leaves the lanes, the word path, the queues and the pins alone (R65, R108). -/
theorem takeCues_eq (g : GroupId) (n : FrameNo) (tags : List Byte) (s : State) {u : State} (hu : u = tags.foldl (State.takeCue g n) s) :
    u = { s with mix := u.mix, cues := u.cues, mem := { s.mem with lines := u.mem.lines }, link := u.link, faults := u.faults } := by
  have kept := takeCues_keeps g n tags s
  have mem := takeCues_mem g n tags s
  rw [← hu] at kept mem
  exact State.eq_of_fields kept.pending kept.resetHeld kept.straps kept.lane kept.word rfl rfl mem rfl rfl kept.pins kept.free

/-- The end of a pass clears deferred flags and changes no cue besides (R64, R84). -/
theorem follows_endPass (u : State) (g : GroupId) : CuesFollow [] u.cues (u.endPass g).cues := by
  refine cuesFollow_map (f := fun c => if c.group = g then { c with deferred := false } else c) (fun c => ?_) fun c waiting _ => ?_
  · split
    · exact ⟨rfl, rfl, rfl, id⟩
    · exact .refl c
  · split
    · exact ⟨rfl, waiting, rfl, rfl, .inl rfl⟩
    · exact .refl waiting

/-- A tag is among those of the due cues exactly when its cue is due. -/
theorem mem_dueTags (distinct : s.TagsDistinct) {c : Cue} (hc : c ∈ s.cues) : c.tag ∈ s.dueTags g n ↔ c.isDue g n = true := by
  constructor
  · intro h
    obtain ⟨d, hd, tag⟩ := List.mem_map.mp h
    obtain ⟨mem, due⟩ := List.mem_filter.mp hd
    rwa [← eq_of_tag_eq distinct mem hc tag]
  · exact fun due => List.mem_map_of_mem (List.mem_filter.mpr ⟨hc, due⟩)

/-- Settles O38: the stage is the due cues taken one after another, and then the pass goes on or ends. -/
theorem cueStartTakesTheDueCues : Obligations.CueStartTakesTheDueCues := by
  intro s g p pass stage distinct
  obtain ⟨u, hu⟩ : ∃ u, u = (s.dueTags g p.frame).foldl (State.takeCue g p.frame) s := ⟨_, rfl⟩
  have whole := takeCues_eq g p.frame (s.dueTags g p.frame) s hu
  obtain ⟨follows, taken⟩ := takeCues_follow g p.frame (s.dueTags g p.frame) distinct
  have passes (o : GroupId) : u.pass o = s.pass o := pass_of_passes (hu ▸ takeCues_passes g p.frame _ s) o
  rw [← hu] at follows taken
  obtain ⟨t, runs, changes, passOf, ends⟩ : ∃ t, exec (.cueStart g) s = .next t ∧
      t = { u with mix := t.mix, cues := t.cues } ∧
      (∀ o, t.pass o = if o = g then (if p.buses = [] then none else some { p with stage := .gainStep }) else s.pass o) ∧
      CuesFollow [] u.cues t.cues := by
    by_cases none_ : p.buses = []
    · refine ⟨u.endPass g, ?_, rfl, fun o => ?_, follows_endPass u g⟩
      · rw [cueStart_ends pass stage none_, hu]
      · rw [endPass_pass, if_pos none_, passes]
    · refine ⟨u.modifyPass g fun q => { q with stage := .gainStep }, ?_, rfl, fun o => ?_, .refl [] _⟩
      · rw [cueStart_going pass stage none_, hu]
      · rw [modifyPass_pass, if_neg none_, passes, passes, pass]
        rfl
  have all := follows.trans (ends.mono (more := s.dueTags g p.frame) fun _ h => absurd h List.not_mem_nil)
  refine ⟨t, runs, ?_, fun o other => ?_, ?_, fun c hc due d hd tag => ?_, fun c hc waiting notDue => ?_, fun d hd => ?_⟩
  · rw [changes, whole]
  · rw [passOf, if_neg other]
  · rw [passOf, if_pos rfl]
  · obtain ⟨b, hb, from_⟩ := ends.source d hd
    exact from_.taken (taken b hb (by rw [from_.tag, tag]; exact (mem_dueTags distinct hc).mpr due))
  · obtain ⟨d, hd, waits⟩ := all.waiting c hc waiting fun mem => by
      rw [(mem_dueTags distinct hc).mp mem] at notDue
      cases notDue
    exact ⟨d, hd, waits.tag, waits.state, waits.edits, waits.armed, waits.trigger⟩
  · obtain ⟨c, hc, from_⟩ := all.source d hd
    exact ⟨c, hc, from_.tag, from_.group, from_.rampLength⟩

end Sys2Proof.Machine
end

section
/-! PROOFS. ACCUMULATE: the results, the clip flags and the CLIP notice (R43, R70 to R72). -/

namespace Sys2Proof.Machine

variable {s t : State} {g : GroupId} {p : Pass}

/-! ### The result of a rounded integer (R72) -/

theorem limit_inside {i : Int} (mode : Overflow) (low : -8388608 ≤ i) (high : i ≤ 8388607) : (limit mode i).toInt = i := by
  have value : (BitVec.ofInt 24 i).toInt = i := by
    rw [BitVec.toInt_ofInt]
    exact Int.bmod_eq_of_le (by omega) (by omega)
  cases mode with
  | saturate =>
    have within : max sampleMin (min sampleMax i) = i := by
      simp only [sampleMin, sampleMax]
      omega
    rw [limit, within, value]
  | wrap => exact value

theorem limit_above {i : Int} (high : 8388607 < i) : (limit .saturate i).toInt = 8388607 := by
  have top : max sampleMin (min sampleMax i) = 8388607 := by
    simp only [sampleMin, sampleMax]
    omega
  rw [limit, top]
  decide

theorem limit_below {i : Int} (low : i < -8388608) : (limit .saturate i).toInt = -8388608 := by
  have bottom : max sampleMin (min sampleMax i) = -8388608 := by
    simp only [sampleMin, sampleMax]
    omega
  rw [limit, bottom]
  decide

/-- A wrapped result differs from the integer by a multiple of 2^24 (R72). -/
theorem limit_wrap (i : Int) : (2 : Int) ^ 24 ∣ (limit .wrap i).toInt - i := by
  rw [limit, BitVec.toInt_ofInt]
  exact Int.dvd_bmod_sub_self

/-! ### The CLIP notice (R43, R72, R158) -/

/-- What the notice of CLIP has become when some buses' flags have become set: it gathers the mask of those buses (R158). -/
structure ClipNotice (before after : Option PendingNotice) (new : BusId → Bool) : Prop where
  unchanged : (∀ b, new b = false) → after = before
  gathers : ∀ b, new b = true → ∃ mask more, after = some { payload := .clip mask, more := more } ∧
    (before = none → ∀ d : BusId, mask.getLsbD d.val = new d) ∧
    (∀ old m, before = some { payload := .clip old, more := m } → more = true ∧ ∀ d : BusId, mask.getLsbD d.val = (old.getLsbD d.val || new d))

theorem ClipNotice.none (o : Option PendingNotice) : ClipNotice o o fun _ => false := ⟨fun _ => rfl, nofun⟩

theorem ClipNotice.trans {o₁ o₂ o₃ : Option PendingNotice} {m n : BusId → Bool} (h : ClipNotice o₁ o₂ m) (k : ClipNotice o₂ o₃ n) :
    ClipNotice o₁ o₃ fun d => m d || n d := by
  by_cases first : ∀ b, m b = false
  · have same := h.unchanged first
    have only : (fun d => m d || n d) = n := funext fun d => by rw [first d, Bool.false_or]
    rw [only, ← same]
    exact k
  · obtain ⟨b, hb⟩ := Classical.not_forall.mp first
    obtain ⟨mask, more, after, fresh, gathered⟩ := h.gathers b (by simpa using hb)
    refine ⟨fun none_ => absurd (none_ b) (by simp [hb]), fun _ _ => ?_⟩
    by_cases second : ∀ d, n d = false
    · refine ⟨mask, more, (k.unchanged second).trans after, fun idle d => ?_, fun old was pending => ?_⟩
      · rw [fresh idle, second d, Bool.or_false]
      · obtain ⟨again, bits⟩ := gathered old was pending
        exact ⟨again, fun d => by rw [bits, second d, Bool.or_false]⟩
    · obtain ⟨c, hc⟩ := Classical.not_forall.mp second
      obtain ⟨mask', more', after', -, gathered'⟩ := k.gathers c (by simpa using hc)
      obtain ⟨again', bits'⟩ := gathered' mask more after
      refine ⟨mask', more', after', fun idle d => ?_, fun old was pending => ⟨again', fun d => ?_⟩⟩
      · rw [bits', fresh idle]
      · rw [bits', (gathered old was pending).2 d, Bool.or_assoc]

/-- The mask of one bus. -/
theorem busMask_bit (b d : BusId) : (BitVec.ofNat 16 (2 ^ b.val)).getLsbD d.val = decide (b = d) := by
  rw [BitVec.getLsbD_ofNat, decide_eq_true d.isLt, Bool.true_and, Nat.testBit_two_pow]
  exact decide_eq_decide.mpr Fin.ext_iff.symm

/-- One bus adds itself to the notice (R72, R158). -/
theorem clipNotice_occur {l : Link} (enabled : l.enabled .clip = true) (b : BusId) :
    ClipNotice (l.notice .clip) ((l.occur .clip (.clip (BitVec.ofNat 16 (2 ^ b.val)))).notice .clip) fun d => decide (b = d) := by
  refine ⟨fun none_ => absurd (none_ b) (by simp), fun _ _ => ?_⟩
  rw [Link.notice_occur, if_pos ⟨enabled, rfl⟩]
  cases before : l.notice .clip with
  | none => exact ⟨_, _, rfl, fun _ d => busMask_bit b d, nofun⟩
  | some old =>
    obtain ⟨payload, m⟩ := old
    cases payload with
    | clip mask =>
      refine ⟨_, _, rfl, nofun, ?_⟩
      rintro _ _ ⟨⟩
      exact ⟨rfl, fun d => by rw [BitVec.getLsbD_or, busMask_bit]⟩
    | live => exact ⟨_, _, rfl, nofun, nofun⟩
    | cueDone _ _ => exact ⟨_, _, rfl, nofun, nofun⟩
    | mark _ => exact ⟨_, _, rfl, nofun, nofun⟩
    | line _ => exact ⟨_, _, rfl, nofun, nofun⟩
    | pin _ => exact ⟨_, _, rfl, nofun, nofun⟩

/-! ### Buses that clip one after another (R72) -/

theorem clipBus_set {b : BusId} (set : (s.bus b).clip = true) : s.clipBus b = s := if_pos set

theorem clipBus_link {b : BusId} (clear : (s.bus b).clip = false) :
    (s.clipBus b).link = s.link.occur .clip (.clip (BitVec.ofNat 16 (2 ^ b.val))) := by
  have notSet : ¬ (s.bus b).clip = true := by simp [clear]
  rw [State.clipBus, if_neg notSet]
  rfl

/-- Buses whose flags are set already raise nothing. -/
theorem clipBuses_link_unchanged (is : List PassBus) (set : ∀ i ∈ is, (s.bus i.bus).clip = true) :
    is.foldl (fun v i => v.clipBus i.bus) s = s := by
  induction is with
  | nil => rfl
  | cons i rest ih =>
    rw [List.foldl_cons, clipBus_set (set i List.mem_cons_self)]
    exact ih fun j hj => set j (List.mem_cons_of_mem _ hj)

/-- The notice gathers every bus whose flag becomes set (R43, R72). -/
theorem clipBuses_notice (is : List PassBus) (enabled : s.link.enabled .clip = true) :
    ClipNotice (s.link.notice .clip) ((is.foldl (fun v i => v.clipBus i.bus) s).link.notice .clip)
      fun d => (is.any fun i => decide (i.bus = d)) && !(s.bus d).clip := by
  induction is generalizing s with
  | nil => exact .none _
  | cons i rest ih =>
    rw [List.foldl_cons]
    cases clip : (s.bus i.bus).clip with
    | true =>
      have same : (fun d => ((i :: rest).any fun i => decide (i.bus = d)) && !(s.bus d).clip) =
          fun d => (rest.any fun i => decide (i.bus = d)) && !(s.bus d).clip := by
        funext d
        by_cases own : i.bus = d
        · rw [← own, clip]
          simp
        · simp [own]
      rw [clipBus_set clip, same]
      exact ih enabled
    | false =>
      have enabled' : (s.clipBus i.bus).link.enabled .clip = true := by
        rw [Link.enabled, (clipBus_frame (s := s) i.bus).2.2.2.2.2.2.2.2.2.2.2.2.2.2.2.1]
        exact enabled
      have first := clipNotice_occur enabled i.bus
      rw [← clipBus_link clip] at first
      have split : (fun d => ((i :: rest).any fun i => decide (i.bus = d)) && !(s.bus d).clip) =
          fun d => decide (i.bus = d) || ((rest.any fun i => decide (i.bus = d)) && !((s.clipBus i.bus).bus d).clip) := by
        funext d
        rw [clipBus_bus]
        by_cases own : i.bus = d
        · rw [← own, clip]
          simp
        · simp [own]
      rw [split]
      exact first.trans (ih enabled')

/-! ### ACCUMULATE -/

theorem exec_accumulate (pass : s.pass g = some p) (stage : p.stage = .accumulate) : exec (.accumulate g) s = .next
    (((p.buses.filter fun i => clips (i.rounded p.samples)).foldl (fun v i => v.clipBus i.bus) s).modifyPass g fun q =>
      { q with stage := .exchange, buses := q.buses.map fun i => { i with result := limit i.overflow (i.rounded q.samples) } }) := by
  simp only [exec, execAccumulate, passAt_eq pass stage]

/-- A bus is out of range exactly when one of the pass's buses of that number is. -/
theorem any_clipped (is : List PassBus) (out : PassBus → Bool) (b : BusId) :
    ((is.filter out).any fun i => decide (i.bus = b)) = is.any fun i => decide (i.bus = b) && out i := by
  rw [List.any_filter]
  simp only [Bool.and_comm]

/-- Settles O44: the buses out of range clip one after another, and each bus of the pass gets its limited sum. -/
theorem accumulateSumsAndClips : Obligations.AccumulateSumsAndClips := by
  intro s g p pass stage sum out
  have rounded (i : PassBus) : i.rounded p.samples = sum i := rfl
  have clipsOut (b : BusId) : ((p.buses.filter fun i => clips (i.rounded p.samples)).any fun i => decide (i.bus = b)) = out b :=
    any_clipped p.buses _ b
  have frame := (clipBuses_frame (p.buses.filter fun i => clips (i.rounded p.samples)) s).1
  have bus := clipBuses_bus (p.buses.filter fun i => clips (i.rounded p.samples)) s
  have notice := clipBuses_notice (s := s) (p.buses.filter fun i => clips (i.rounded p.samples))
  have still := clipBuses_link_unchanged (s := s) (p.buses.filter fun i => clips (i.rounded p.samples))
  have runs := exec_accumulate pass stage
  simp only [clipsOut] at bus notice
  have settled (all : ∀ b, out b = true → (s.bus b).clip = true) :
      (p.buses.filter fun i => clips (i.rounded p.samples)).foldl (fun v i => v.clipBus i.bus) s = s := by
    refine still fun i hi => all i.bus ?_
    rw [← clipsOut, List.any_eq_true]
    exact ⟨i, hi, decide_eq_true rfl⟩
  generalize (p.buses.filter fun i => clips (i.rounded p.samples)).foldl (fun v i => v.clipBus i.bus) s = u at *
  have passes (o : GroupId) : u.pass o = s.pass o := by
    rw [frame]
    rfl
  refine ⟨_, runs, ?_, fun o other => ?_, ?_, fun b => ?_, fun all => ?_, fun b clipped clear enabled => ?_⟩
  · rw [frame]
    rfl
  · rw [modifyPass_pass, if_neg other, passes]
  · refine ⟨p.buses.map fun i => { i with result := limit i.overflow (i.rounded p.samples) }, ?_, ?_, fun k i j hi hj => ?_⟩
    · rw [modifyPass_pass, if_pos rfl, passes, pass]
      rfl
    · rw [List.map_map]
      rfl
    · rw [List.getElem?_map, hi] at hj
      cases hj
      refine ⟨rfl, limit_inside i.overflow, fun high saturates => ?_, fun low saturates => ?_, fun wraps => ?_⟩
      · simp only [saturates]
        exact limit_above high
      · simp only [saturates]
        exact limit_below low
      · simp only [wraps]
        exact limit_wrap (sum i)
  · exact bus b
  · exact (congrArg State.link (settled all) : u.link = s.link)
  · exact (notice enabled).gathers b (by rw [clipped, clear]; rfl)

end Sys2Proof.Machine
end

section
/-! PROOFS. GAIN_STEP: the gains of a ramp, the table, the entry counts and the cues that complete (R50, R67 to R69). -/

namespace Sys2Proof.Machine

variable {s t : State} {g : GroupId} {p : Pass}

/-! ### The gain of a ramp (R67) -/

/-- A share k of n of a rise is a rise, at most the whole. -/
theorem tdiv_share_of_nonneg {d : Int} {k n : Nat} (rise : 0 ≤ d) (pos : 1 ≤ n) (le : k ≤ n) :
    0 ≤ (d * k).tdiv n ∧ (d * k).tdiv n ≤ d := by
  have product : 0 ≤ d * k := Int.mul_nonneg rise (Int.natCast_nonneg k)
  rw [Int.tdiv_eq_ediv_of_nonneg product]
  refine ⟨Int.ediv_nonneg product (Int.natCast_nonneg n), Int.ediv_le_of_le_mul (by omega) ?_⟩
  exact Int.mul_le_mul_of_nonneg_left (by omega) rise

/-- Of a fall too: the quotient is truncated toward zero on both sides. -/
theorem tdiv_share (d : Int) {k n : Nat} (pos : 1 ≤ n) (le : k ≤ n) : min 0 d ≤ (d * k).tdiv n ∧ (d * k).tdiv n ≤ max 0 d := by
  obtain rise | fall := Int.le_total 0 d
  · obtain ⟨low, high⟩ := tdiv_share_of_nonneg rise pos le
    omega
  · obtain ⟨low, high⟩ := tdiv_share_of_nonneg (d := -d) (by omega) pos le
    rw [Int.neg_mul, Int.neg_tdiv] at low high
    omega

/-- The gain of a ramp is the formula itself: nothing of it is cut off at 24 bits (R67). -/
theorem gainAt_toInt {r : Ramp} {k : Nat} (pos : 1 ≤ r.length) (le : k ≤ r.length) :
    (r.gainAt k).toInt = r.start.toInt + ((r.target.toInt - r.start.toInt) * k).tdiv r.length := by
  obtain ⟨low, high⟩ := tdiv_share (r.target.toInt - r.start.toInt) pos le
  have start : -2 ^ 23 ≤ r.start.toInt ∧ r.start.toInt < 2 ^ 23 := ⟨BitVec.le_toInt r.start, BitVec.toInt_lt⟩
  have target : -2 ^ 23 ≤ r.target.toInt ∧ r.target.toInt < 2 ^ 23 := ⟨BitVec.le_toInt r.target, BitVec.toInt_lt⟩
  rw [Ramp.gainAt, BitVec.toInt_ofInt]
  exact Int.bmod_eq_of_le (by omega) (by omega)

theorem gainAt_between {r : Ramp} {k : Nat} (pos : 1 ≤ r.length) (le : k ≤ r.length) :
    min r.start.toInt r.target.toInt ≤ (r.gainAt k).toInt ∧ (r.gainAt k).toInt ≤ max r.start.toInt r.target.toInt := by
  have share := tdiv_share (r.target.toInt - r.start.toInt) pos le
  rw [gainAt_toInt pos le]
  omega

/-- A ramp ends at its target (R67). -/
theorem gainAt_length {r : Ramp} (pos : 1 ≤ r.length) : r.gainAt r.length = r.target := by
  refine BitVec.eq_of_toInt_eq ?_
  rw [gainAt_toInt pos (Nat.le_refl _), Int.mul_tdiv_cancel _ (by omega)]
  omega

/-! ### The table (R68) -/

theorem hasBus_iff {b : BusId} : p.hasBus b = true ↔ ∃ i ∈ p.buses, i.bus = b := by
  simp only [Pass.hasBus, List.any_eq_true, decide_eq_true_eq]

theorem visits_iff {e : Entry} : s.visits g p e = true ↔ (∃ i ∈ p.buses, i.bus = e.bus) ∧ s.groupOfChannel e.channel = g := by
  rw [State.visits, Bool.and_eq_true, hasBus_iff, decide_eq_true_eq]

theorem rampEnds_iff {e : Entry} : e.rampEnds = true ↔ ∃ r, e.state.ramp = some r ∧ r.length ≤ r.elapsed + 1 := by
  unfold Entry.rampEnds
  cases e.state.ramp with
  | none => simp
  | some r => simp [Ramp.ends]

theorem step_steady {e : Entry} (h : e.state = .steady) : e.step = some e := by
  simp only [Entry.step, h]

theorem ends_iff {r : Ramp} : r.ends = true ↔ ¬ r.elapsed + 1 < r.length := by
  rw [Ramp.ends, decide_eq_true_eq, Nat.not_lt]

theorem step_ramping {e : Entry} {r : Ramp} (h : e.state = .ramping r) : e.step = some (if r.elapsed + 1 < r.length
    then { e with gain := r.gainAt (r.elapsed + 1), state := .ramping { r with elapsed := r.elapsed + 1 } }
    else { e with gain := r.target, state := .steady }) := by
  simp only [Entry.step, h, ends_iff, ite_not, Ramp.step]

theorem step_fading {e : Entry} {r : Ramp} (h : e.state = .fading r) : e.step = if r.elapsed + 1 < r.length
    then some { e with gain := r.gainAt (r.elapsed + 1), state := .fading { r with elapsed := r.elapsed + 1 } } else none := by
  simp only [Entry.step, h, ends_iff, ite_not, Ramp.step]

/-- The visited entries of the new table are the entries at the visited places. -/
theorem termsOf_eq {b : BusId} (on : p.hasBus b = true) (xp : List Entry) : termsOf (s.visits g p) xp b =
    (xp.filter fun e => decide (e.bus = b ∧ s.groupOfChannel e.channel = g)).map fun e => (e.channel, e.gain) := by
  refine congrArg (List.map _) (List.filter_congr fun e _ => ?_)
  rw [Bool.eq_iff_iff, Bool.and_eq_true, decide_eq_true_eq, decide_eq_true_eq, visits_iff]
  constructor
  · rintro ⟨⟨-, group⟩, here⟩
    exact ⟨here, group⟩
  · rintro ⟨here, group⟩
    exact ⟨⟨here ▸ hasBus_iff.mp on, group⟩, here⟩

/-! ### The event -/

theorem exec_gainStep (pass : s.pass g = some p) (stage : p.stage = .gainStep) : exec (.gainStep g) s = .next
    (((s.mix.xp.filter fun e => s.visits g p e && e.rampEnds).foldl State.endRamp (s.setXp (stepTable (s.visits g p) s.mix.xp))).modifyPass g
      fun q => { q with stage := .accumulate, buses := q.buses.map fun i =>
        { i with terms := termsOf (s.visits g p) (stepTable (s.visits g p) s.mix.xp) i.bus } }) := by
  simp only [exec, execGainStep, passAt_eq pass stage]

/-- The entries of a bus that leave are the fading ones among those whose ramps end (R68). -/
theorem countP_leaving (visited : Entry → Bool) (xp : List Entry) (b : BusId) :
    ((xp.filter fun e => visited e && e.rampEnds).countP fun e => e.step.isNone && decide (e.bus = b)) =
      (xp.filter fun e => decide (e.bus = b ∧ (if visited e then e.step else some e) = none)).length := by
  rw [List.countP_filter, ← List.countP_eq_length_filter]
  refine List.countP_congr fun e _ => ?_
  cases visited e with
  | false => simp
  | true =>
    cases step : e.step with
    | none => simp [rampEnds_of_step_none step]
    | some f => simp

/-- Settles O42: the ramps that end are dealt with one after another over the stepped table, and each term list is read off it. -/
theorem gainStepAdvancesTheRamps : Obligations.GainStepAdvancesTheRamps := by
  refine ⟨fun s g p pass stage => ?step, fun r k pos le => ?gain⟩
  case gain =>
    obtain ⟨low, high⟩ := gainAt_between pos le
    exact ⟨gainAt_toInt pos le, low, high, gainAt_length pos⟩
  case step =>
    intro stepped
    have steps : stepped = fun e => if s.visits g p e then e.step else some e := by
      funext e
      simp only [stepped, visits_iff]
      refine ite_congr rfl (fun _ => ?_) fun _ => rfl
      cases state : e.state with
      | steady => exact (step_steady state).symm
      | ramping r => exact (step_ramping state).symm
      | fading r => exact (step_fading state).symm
    have runs := exec_gainStep pass stage
    have frame := endRamps_frame (s.mix.xp.filter fun e => s.visits g p e && e.rampEnds) (s.setXp (stepTable (s.visits g p) s.mix.xp))
    have bus := endRamps_bus (s.mix.xp.filter fun e => s.visits g p e && e.rampEnds) (s.setXp (stepTable (s.visits g p) s.mix.xp))
    have lost (distinct : s.TagsDistinct) (exact_ : s.RampCountsExact) (order : s.TableInOrder) :=
      lost_foldl endRamp_losesRamp (coversLoss_of_exact distinct exact_ List.filter_sublist)
        (List.Pairwise.sublist List.filter_sublist order)
        (t := s.setXp (stepTable (s.visits g p) s.mix.xp)) (lost := s.mix.xp.filter fun e => s.visits g p e && e.rampEnds) rfl rfl rfl
    have leaving (b : BusId) := countP_leaving (s.visits g p) s.mix.xp b
    have table : s.mix.xp.filterMap stepped = stepTable (s.visits g p) s.mix.xp := by rw [steps]; rfl
    have ending : (s.mix.xp.filter fun e => decide ((∃ i ∈ p.buses, i.bus = e.bus) ∧ s.groupOfChannel e.channel = g ∧
        ∃ r, e.state.ramp = some r ∧ r.length ≤ r.elapsed + 1)) = s.mix.xp.filter fun e => s.visits g p e && e.rampEnds := by
      refine List.filter_congr fun e _ => ?_
      rw [Bool.eq_iff_iff, decide_eq_true_eq, Bool.and_eq_true, visits_iff, rampEnds_iff, and_assoc]
    rw [table, ending]
    simp only [steps, ← leaving]
    generalize (s.mix.xp.filter fun e => s.visits g p e && e.rampEnds).foldl State.endRamp
      (s.setXp (stepTable (s.visits g p) s.mix.xp)) = u at *
    obtain ⟨pending, resetHeld, straps, lane, word, xp, routes, passes, mem, -, -, faults, pins, free⟩ := frame
    refine ⟨_, runs, ?whole, xp, bus, fun o other => ?others, ?own, fun distinct exact_ order => ?cues⟩
    case whole =>
      exact State.eq_of_fields pending resetHeld straps lane word (MixEngine.eq_of_fields rfl rfl routes rfl) rfl mem rfl faults pins free
    case others =>
      rw [modifyPass_pass, if_neg other]
      exact pass_of_passes passes o
    case own =>
      rw [modifyPass_pass, if_pos rfl, pass_of_passes passes g, setXp_pass, pass]
      refine congrArg (fun buses => some { p with stage := Stage.accumulate, buses := buses }) (List.map_congr_left fun i hi => ?_)
      have table' : (u.modifyPass g fun q => { q with stage := .accumulate, buses := q.buses.map fun i =>
          { i with terms := termsOf (s.visits g p) (stepTable (s.visits g p) s.mix.xp) i.bus } }).mix.xp =
          stepTable (s.visits g p) s.mix.xp := xp
      rw [table', termsOf_eq (hasBus_iff.mpr ⟨i, hi, rfl⟩)]
    case cues =>
      obtain ⟨done, are, cues, link, -⟩ := lost distinct exact_ order
      exact (cuesAfterLoss_iff s _ _ _).mpr ⟨done, are, cues, link⟩

end Sys2Proof.Machine
end

section
/-! PROOFS. LANE RETIRE: the lane that leaves its plan, with the channels it carries (R12, R13, R59, R60). -/

namespace Sys2Proof.Machine

variable {s t : State} {f : ReceivedFrame} {q : QuadId} {p : LanePos} {plan : Plan} {l : LanePlan}

/-! ### Channels that leave (R13) -/

theorem retireInputs_word (s : State) (chosen : Channel → Bool) : (s.retireInputs chosen).word = (s.emptyInputs chosen).word := by
  rw [retireInputs_eq]
  exact foldl_proj _ State.word (fun v e => by simp) _ _

theorem retireInputs_capture (s : State) (chosen : Channel → Bool) (c : Channel) :
    (s.retireInputs chosen).word.capture[c] = if chosen c then ⟨0, 0⟩ else s.word.capture[c] := by
  rw [retireInputs_word]
  exact fillWhere_get _ _ _ c

theorem retireInputs_inSlot (s : State) (chosen : Channel → Bool) (c : Channel) :
    (s.retireInputs chosen).word.inSlot[c] = if chosen c then 0 else s.word.inSlot[c] := by
  rw [retireInputs_word]
  exact fillWhere_get _ _ _ c

theorem retireOutputs_word (s : State) (chosen : Channel → Bool) :
    (s.retireOutputs chosen).word = ((s.clearOutputs chosen).silence chosen).word :=
  foldl_proj _ State.word (fun v e => by simp) _ _

theorem retireOutputs_samples (s : State) (chosen : Channel → Bool) (c : Channel) :
    (s.retireOutputs chosen).word.outSlot[c] = (if chosen c then ⟨0, false⟩ else s.word.outSlot[c]) ∧
    (s.retireOutputs chosen).word.lastWord[c] = (if chosen c then 0 else s.word.lastWord[c]) ∧
    (s.retireOutputs chosen).word.settled[c] = (if chosen c then 0 else s.word.settled[c]) ∧
    (s.retireOutputs chosen).word.previous[c] = if chosen c then 0 else s.word.previous[c] := by
  rw [retireOutputs_word]
  exact ⟨fillWhere_get _ _ _ c, fillWhere_get _ _ _ c, fillWhere_get _ _ _ c, fillWhere_get _ _ _ c⟩

/-- The owned counts when channels become ABSENT, each once (R55). -/
theorem absents_bus {cs : List Channel} (once : cs.Nodup) (s : State) (b : BusId) :
    (cs.foldl (fun v d => v.setRoute d .absent) s).bus b = { s.bus b with
      ownedCount := (s.bus b).ownedCount - cs.countP fun c => decide (s.route c = .owned b) } := by
  induction cs generalizing s with
  | nil => rfl
  | cons d rest ih =>
    obtain ⟨fresh, once⟩ := List.nodup_cons.mp once
    have later : (rest.countP fun c => decide ((s.setRoute d .absent).route c = .owned b)) =
        rest.countP fun c => decide (s.route c = .owned b) := by
      refine List.countP_congr fun c hc => ?_
      have other : c ≠ d := fun same => fresh (same ▸ hc)
      rw [setRoute_route, if_neg other]
    have none_ : (if Route.absent.owner = some b then 1 else 0) = 0 := if_neg (by simp [Route.owner])
    rw [List.foldl_cons, ih once, later, setRoute_bus, none_, List.countP_cons, Nat.add_comm (rest.countP _), ← Nat.sub_sub]
    simp only [owner_eq_some, decide_eq_true_eq, Nat.add_zero]

theorem retireOutputs_bus (s : State) (chosen : Channel → Bool) (b : BusId) : (s.retireOutputs chosen).bus b = { s.bus b with
    ownedCount := (s.bus b).ownedCount - (allChannels.filter fun c => chosen c && decide (s.route c = .owned b)).length } := by
  have once : (allChannels.filter chosen).Nodup := (List.nodup_finRange 16).filter _
  have count : ((allChannels.filter chosen).countP fun c => decide (s.route c = .owned b)) =
      (allChannels.filter fun c => chosen c && decide (s.route c = .owned b)).length := by
    rw [List.countP_filter, List.countP_eq_length_filter]
    simp only [Bool.and_comm]
  have mix : ((s.clearOutputs chosen).silence chosen).mix = s.mix := by simp
  rw [State.retireOutputs, ← count]
  generalize (s.clearOutputs chosen).silence chosen = u at mix
  rw [absents_bus once, bus_congr mix]
  simp only [route_congr mix]

/-- The cues that complete when the entries of some channels go, and the notices they raise (R59, R100). -/
theorem retireInputs_lost (distinct : s.TagsDistinct) (exact_ : s.RampCountsExact) (order : s.TableInOrder) (chosen : Channel → Bool) :
    ∃ done, s.Lost (s.mix.xp.filter fun e => chosen e.channel) done (s.retireInputs chosen) := by
  obtain ⟨mix, cues, link⟩ := emptyInputs_frame s chosen
  rw [retireInputs_eq]
  generalize s.emptyInputs chosen = v at mix cues link
  exact lost_foldl removeEntry_losesRamp (coversLoss_of_exact distinct exact_ List.filter_sublist)
    (List.Pairwise.sublist List.filter_sublist order) cues link (congrArg MixEngine.passes mix)

/-- The link when the request that is carried out has left its queue (R150). -/
def Link.served (l : Link) : Link := { l with requests := l.requests.tail }

theorem taken_served (s : State) : s.taken.link = s.link.served := rfl

/-- Completions do not look at the request queue (R150, R158). -/
theorem doneNotices_served (done : List Cue) (k : Link) :
    done.foldl (fun l c => l.occur .cueDone (.cueDone c.group c.tag)) k.served =
      (done.foldl (fun l c => l.occur .cueDone (.cueDone c.group c.tag)) k).served := by
  induction done generalizing k with
  | nil => rfl
  | cons c rest ih =>
    have first : k.served.occur .cueDone (.cueDone c.group c.tag) = (k.occur .cueDone (.cueDone c.group c.tag)).served :=
      Link.occur_answered k .cueDone (.cueDone c.group c.tag)
    rw [List.foldl_cons, first, ih, List.foldl_cons]

/-- What is left when some input channels have gone (R13, R27, R59). -/
structure State.LosesInputs (u s : State) (gone : Channel → Bool) : Prop where
  pending : u.pending = s.pending
  resetHeld : u.resetHeld = s.resetHeld
  straps : u.straps = s.straps
  lane : u.lane = s.lane
  outSlot : u.word.outSlot = s.word.outSlot
  lastWord : u.word.lastWord = s.word.lastWord
  settled : u.word.settled = s.word.settled
  previous : u.word.previous = s.word.previous
  firstFrame : u.word.firstFrame = s.word.firstFrame
  routes : u.mix.routes = s.mix.routes
  passes : u.mix.passes = s.mix.passes
  mem : u.mem = s.mem
  faults : u.faults = s.faults
  pins : u.pins = s.pins
  free : u.free = s.free
  xp : u.mix.xp = s.mix.xp.filter fun e => !gone e.channel
  bus : ∀ b, u.bus b = { s.bus b with
    entryCount := (s.bus b).entryCount - (s.mix.xp.filter fun e => gone e.channel && decide (e.bus = b)).length }
  capture : ∀ c : Channel, u.word.capture[c] = if gone c then ⟨0, 0⟩ else s.word.capture[c]
  inSlot : ∀ c : Channel, u.word.inSlot[c] = if gone c then 0 else s.word.inSlot[c]
  lost : s.TagsDistinct → s.RampCountsExact → s.TableInOrder → ∃ done, s.Lost (s.mix.xp.filter fun e => gone e.channel) done u

theorem retireInputs_loses (s : State) (gone : Channel → Bool) : (s.retireInputs gone).LosesInputs s gone := by
  obtain ⟨pending, resetHeld, straps, lane, outSlot, lastWord, settled, previous, firstFrame, routes, passes, mem, -, -, -, -, -, -, -,
    faults, pins, free⟩ := retireInputs_frame (s := s) gone
  exact ⟨pending, resetHeld, straps, lane, outSlot, lastWord, settled, previous, firstFrame, routes, passes, mem, faults, pins, free,
    retireInputs_xp s gone, retireInputs_bus s gone, retireInputs_capture s gone, retireInputs_inSlot s gone,
    fun distinct exact_ order => retireInputs_lost distinct exact_ order gone⟩

/-! ### The block -/

theorem exec_laneRetire (s : State) : exec .laneRetire s = .next (s.takeRequest .laneRetire laneRetire) := rfl

theorem laneRetire_unstarted (unstarted : (s.quad q).startedPlan = none) :
    laneRetire [byteOfLetter q, BitVec.ofNat 8 p.val] s = s.refuse .notReady := by
  have letter : letterOf (byteAt [byteOfLetter q, BitVec.ofNat 8 p.val] 0) = some q := letterOf_byteOfLetter q
  have position : index4Of (byteAt [byteOfLetter q, BitVec.ofNat 8 p.val] 1) = some p := index4Of_ofNat p
  simp only [laneRetire, letter, position, unstarted]
  exact if_neg (not_not_intro rfl)

theorem laneRetire_missing (started : s.quad q = .started plan) (missing : plan.lanes[p] = none) :
    laneRetire [byteOfLetter q, BitVec.ofNat 8 p.val] s = s.refuse .noChannel := by
  have letter : letterOf (byteAt [byteOfLetter q, BitVec.ofNat 8 p.val] 0) = some q := letterOf_byteOfLetter q
  have position : index4Of (byteAt [byteOfLetter q, BitVec.ofNat 8 p.val] 1) = some p := index4Of_ofNat p
  simp only [laneRetire, letter, position, started, Quad.startedPlan, missing]
  exact if_neg (not_not_intro rfl)

theorem laneRetire_input (started : s.quad q = .started plan) (present : plan.lanes[p] = some l) (input : l.direction = .input) :
    laneRetire [byteOfLetter q, BitVec.ofNat 8 p.val] s =
      ((s.setQuad q (.started (plan.without p))).retireInputs (laneChannel q p l)).accept [] := by
  have letter : letterOf (byteAt [byteOfLetter q, BitVec.ofNat 8 p.val] 0) = some q := letterOf_byteOfLetter q
  have position : index4Of (byteAt [byteOfLetter q, BitVec.ofNat 8 p.val] 1) = some p := index4Of_ofNat p
  simp only [laneRetire, letter, position, started, Quad.startedPlan, present, input]
  exact if_neg (not_not_intro rfl)

theorem laneRetire_output (started : s.quad q = .started plan) (present : plan.lanes[p] = some l) (output : l.direction = .output) :
    laneRetire [byteOfLetter q, BitVec.ofNat 8 p.val] s =
      ((s.setQuad q (.started (plan.without p))).retireOutputs (laneChannel q p l)).accept [] := by
  have letter : letterOf (byteAt [byteOfLetter q, BitVec.ofNat 8 p.val] 0) = some q := letterOf_byteOfLetter q
  have position : index4Of (byteAt [byteOfLetter q, BitVec.ofNat 8 p.val] 1) = some p := index4Of_ofNat p
  simp only [laneRetire, letter, position, started, Quad.startedPlan, present, output]
  exact if_neg (not_not_intro rfl)

theorem laneChannel_eq (q : QuadId) (p : LanePos) (l : LanePlan) (c : Channel) : laneChannel q p l c =
    decide (channelQuad c = q ∧ 2 * p.val ≤ channelSlot c ∧ channelSlot c < 2 * p.val + 2 * l.granted) := by
  rw [laneChannel, LanePlan.carries, ← Bool.decide_and]

/-- Settles O22: the refusals by the quad and the lane, and the two kinds of lane by what leaves with them. -/
theorem laneRetireRemovesTheLane : Obligations.LaneRetireRemovesTheLane := by
  intro s f q p ha
  refine ⟨fun unstarted => ?_, fun plan started => ⟨fun missing => ?_, fun l present => ?_⟩⟩
  · rw [exec_laneRetire, takeRequest_refused ha (laneRetire_unstarted (s := s.taken) unstarted)]
  · rw [exec_laneRetire, takeRequest_refused ha (laneRetire_missing (s := s.taken) started missing)]
  · intro gone
    have chosen : laneChannel q p l = gone := funext (laneChannel_eq q p l)
    cases direction : l.direction with
    | input =>
      have runs := laneRetire_input (s := s.taken) started present direction
      have loses := retireInputs_loses (s.taken.setQuad q (.started (plan.without p))) (laneChannel q p l)
      rw [chosen] at runs loses
      generalize (s.taken.setQuad q (.started (plan.without p))).retireInputs gone = u at runs loses
      refine ⟨u.makeReply f .ok [], ?_, loses.lane, loses.mem, loses.faults, loses.pins, loses.straps, loses.passes, loses.resetHeld,
        loses.pending, loses.free, fun _ => ⟨loses.xp, loses.routes, loses.bus, loses.outSlot, loses.lastWord, loses.settled,
          loses.previous, loses.firstFrame, fun c => ⟨loses.capture c, loses.inSlot c⟩, fun distinct exact_ order => ?_⟩, nofun⟩
      · rw [exec_laneRetire, takeRequest_eq ha, runs]
        rfl
      · obtain ⟨done, are, cues, link, -⟩ := loses.lost distinct exact_ order
        refine ⟨_, (cuesAfterLoss_iff s _ _ _).mpr ⟨done, are, cues, rfl⟩, ?_⟩
        exact congrArg State.link (makeReply_eq (link.trans (doneNotices_served done s.link)) f .ok [])
    | output =>
      have runs := laneRetire_output (s := s.taken) started present direction
      have frame := retireOutputs_frame (s := s.taken.setQuad q (.started (plan.without p))) (laneChannel q p l)
      have route := retireOutputs_route (s.taken.setQuad q (.started (plan.without p))) (laneChannel q p l)
      have bus := retireOutputs_bus (s.taken.setQuad q (.started (plan.without p))) (laneChannel q p l)
      have samples := retireOutputs_samples (s.taken.setQuad q (.started (plan.without p))) (laneChannel q p l)
      rw [chosen] at frame route bus samples runs
      generalize (s.taken.setQuad q (.started (plan.without p))).retireOutputs gone = u at frame route bus samples runs
      obtain ⟨pending, resetHeld, straps, lane, capture, inSlot, firstFrame, xp, passes, cues, mem, link, faults, pins, free⟩ := frame
      rw [exec_laneRetire, takeRequest_accepted (l := s.link) ha runs link]
      exact ⟨_, rfl, lane, mem, faults, pins, straps, passes, resetHeld, pending, free, nofun, fun _ =>
        ⟨xp, cues, rfl, route, bus, inSlot, capture, firstFrame, samples⟩⟩

end Sys2Proof.Machine
end

section
/-! PROOFS. CUE CANCEL: the cascade of chained cues, and the cues that leave the list with it (R101 to R103, R121). -/

namespace Sys2Proof.Machine

variable {s : State} {f : ReceivedFrame} {cues : List Cue} {root : Byte} {tags : List Byte}

/-! ### The cascade (R103) -/

theorem dependsOn_iff {c : Cue} : c.dependsOn tags = true ↔ c.state = .waiting ∧ ∃ y ∈ tags, c.trigger = .after y := by
  unfold Cue.dependsOn
  cases c.trigger with
  | after x => simp
  | next => simp
  | pin k => simp
  | atFrame n => simp

/-- The tags of the cues that depend on some tags and are not among them. -/
def layerOf (cues : List Cue) (tags : List Byte) : List Byte :=
  (cues.filter fun c => c.dependsOn tags && decide (c.tag ∉ tags)).map Cue.tag

theorem cascade_succ (cues : List Cue) (n : Nat) (tags : List Byte) : cascade cues (n + 1) tags =
    if (layerOf cues tags).isEmpty then tags else cascade cues n (tags ++ layerOf cues tags) := rfl

theorem mem_layerOf {x : Byte} : x ∈ layerOf cues tags ↔ ∃ c ∈ cues, c.tag = x ∧ x ∉ tags ∧ c.state = .waiting ∧
    ∃ y ∈ tags, c.trigger = .after y := by
  simp only [layerOf, List.mem_map, List.mem_filter, Bool.and_eq_true, decide_eq_true_eq, dependsOn_iff]
  constructor
  · rintro ⟨c, ⟨mem, depends, fresh⟩, rfl⟩
    exact ⟨c, mem, rfl, fresh, depends⟩
  · rintro ⟨c, mem, rfl, fresh, depends⟩
    exact ⟨c, ⟨mem, depends, fresh⟩, rfl⟩

/-- Some tags of the list, once each, every one but the first chained by AFTER to another of them. -/
structure Chained (cues : List Cue) (root : Byte) (tags : List Byte) : Prop where
  holds : root ∈ tags
  once : tags.Nodup
  listed : ∀ x ∈ tags, x ∈ cues.map Cue.tag
  linked : ∀ x ∈ tags, x ≠ root → ∃ c ∈ cues, c.tag = x ∧ c.state = .waiting ∧ ∃ y ∈ tags, c.trigger = .after y

/-- No cue outside the tags is chained to one of them. -/
def Closed (cues : List Cue) (tags : List Byte) : Prop :=
  ∀ c ∈ cues, ∀ y ∈ tags, c.state = .waiting → c.trigger = .after y → c.tag ∈ tags

theorem Chained.of_root (listed : root ∈ cues.map Cue.tag) : Chained cues root [root] := by
  refine ⟨List.mem_singleton_self root, nodup_singleton root, fun x hx => ?_, fun x hx other => ?_⟩
  · rwa [List.mem_singleton.mp hx]
  · exact absurd (List.mem_singleton.mp hx) other

theorem Chained.layer (distinct : (cues.map Cue.tag).Nodup) (h : Chained cues root tags) : Chained cues root (tags ++ layerOf cues tags) := by
  have own : (layerOf cues tags).Nodup := distinct.sublist (List.filter_sublist.map Cue.tag)
  refine ⟨List.mem_append_left _ h.holds, List.nodup_append.mpr ⟨h.once, own, fun x old y new same => ?_⟩, fun x hx => ?_, fun x hx other => ?_⟩
  · obtain ⟨-, -, -, fresh, -⟩ := mem_layerOf.mp new
    exact fresh (same ▸ old)
  · obtain old | new := List.mem_append.mp hx
    · exact h.listed x old
    · obtain ⟨c, mem, rfl, -⟩ := mem_layerOf.mp new
      exact List.mem_map_of_mem mem
  · obtain old | new := List.mem_append.mp hx
    · obtain ⟨c, mem, tag, waits, y, hy, after⟩ := h.linked x old other
      exact ⟨c, mem, tag, waits, y, List.mem_append_left _ hy, after⟩
    · obtain ⟨c, mem, tag, -, waits, y, hy, after⟩ := mem_layerOf.mp new
      exact ⟨c, mem, tag, waits, y, List.mem_append_left _ hy, after⟩

theorem Chained.length_le (h : Chained cues root tags) : tags.length ≤ cues.length := by
  have le := length_le_of_nodup h.once h.listed
  rwa [List.length_map] at le

theorem closed_of_noLayer (none_ : layerOf cues tags = []) : Closed cues tags := by
  intro c mem y hy waits after
  refine Classical.byContradiction fun fresh => ?_
  have new : c.tag ∈ layerOf cues tags := mem_layerOf.mpr ⟨c, mem, rfl, fresh, waits, y, hy, after⟩
  rw [none_] at new
  cases new

/-- The cascade stops at a closed set: every layer before that adds a tag of the list, and there are no more of them than cues. -/
theorem cascade_closes (distinct : (cues.map Cue.tag).Nodup) {n : Nat} (h : Chained cues root tags) (enough : cues.length < tags.length + n) :
    Chained cues root (cascade cues n tags) ∧ Closed cues (cascade cues n tags) := by
  induction n generalizing tags with
  | zero =>
    have le := h.length_le
    omega
  | succ n ih =>
    rw [cascade_succ]
    cases layer : layerOf cues tags with
    | nil => exact ⟨h, closed_of_noLayer layer⟩
    | cons x rest =>
      have next := h.layer distinct
      rw [layer] at next
      refine ih next ?_
      rw [List.length_append, List.length_cons]
      omega

/-! ### The block (R101) -/

theorem withdrawCues_eq (s : State) (tags : List Byte) : s.withdrawCues tags = { s with
    cues := s.cues.filter fun c => decide (c.tag ∉ tags)
    mix := { s.mix with buses := (s.withdrawCues tags).mix.buses, xp := (s.withdrawCues tags).mix.xp } } := by
  obtain ⟨pending, resetHeld, straps, lane, word, routes, passes, mem, link, faults, pins, free⟩ := withdrawCues_frame (s := s) tags
  exact State.eq_of_fields pending resetHeld straps lane word (MixEngine.eq_of_fields rfl rfl routes passes) rfl mem link faults pins free

theorem exec_cueCancel (s : State) : exec .cueCancel s = .next (s.takeRequest .cueCancel cueCancel) := rfl

theorem cueCancel_unknown {tag : Byte} (unknown : s.findCue tag = none) : cueCancel [tag] s = s.refuse .noSuchCue := by
  have found : s.findCue (byteAt [tag] 0) = none := unknown
  simp only [cueCancel, found]
  exact if_neg (not_not_intro rfl)

theorem cueCancel_known {tag : Byte} {c : Cue} (known : s.findCue tag = some c) : cueCancel [tag] s =
    (s.withdrawCues (cascade s.cues s.cues.length [tag])).accept [BitVec.ofNat 8 (cascade s.cues s.cues.length [tag]).length] := by
  have found : s.findCue (byteAt [tag] 0) = some c := known
  simp only [cueCancel, found]
  exact if_neg (not_not_intro rfl)

/-- Settles O36: the cascade's tags are closed under the chain, and the cues of those tags are withdrawn. -/
theorem cueCancelWithdrawsTheChain : Obligations.CueCancelWithdrawsTheChain := by
  intro s f tag ha distinct
  refine ⟨fun unknown => ?_, fun ⟨c, mem, same⟩ => ?_⟩
  · rw [exec_cueCancel, takeRequest_refused ha (cueCancel_unknown (s := s.taken) (findCue_none.mpr unknown))]
  · subst same
    have known : s.taken.findCue c.tag = some c := findCue_eq (s := s) distinct mem
    have runs := cueCancel_known known
    have start : Chained s.cues c.tag [c.tag] := .of_root (List.mem_map_of_mem mem)
    obtain ⟨chained, closed⟩ := cascade_closes (n := s.cues.length) distinct start (by simp)
    change cueCancel [c.tag] s.taken = (s.taken.withdrawCues (cascade s.cues s.cues.length [c.tag])).accept
      [BitVec.ofNat 8 (cascade s.cues s.cues.length [c.tag]).length] at runs
    generalize cascade s.cues s.cues.length [c.tag] = gone at runs chained closed
    have link : (s.taken.withdrawCues gone).link = s.taken.link := by simp
    have eq := withdrawCues_eq s.taken gone
    refine ⟨{ s.taken.withdrawCues gone with link := s.link.answered f .ok [BitVec.ofNat 8 gone.length] }, gone, ?_,
      chained.holds, chained.once, chained.listed, chained.linked, closed, ?_,
      withdrawCues_xp s.taken gone, withdrawCues_bus s.taken gone⟩
    · rw [exec_cueCancel, takeRequest_accepted (l := s.link) ha runs link]
    · exact congrArg (fun u : State => { u with link := s.link.answered f .ok [BitVec.ofNat 8 gone.length] }) eq

end Sys2Proof.Machine
end

section
/-! PROOFS. The payload of CUE POST: the cue it carries, and when it carries one (R86, R88, R173, R177). -/

namespace Sys2Proof.Machine

variable {p : List Byte} {i n : Nat}

/-! ### Bytes of a payload (R173) -/

/-- A field with one byte more. -/
theorem toNat_append_byte {w : Nat} (x : BitVec w) (y : Byte) : (x ++ y).toNat = x.toNat * 256 + y.toNat := by
  rw [BitVec.toNat_append, ← Nat.shiftLeft_add_eq_or_of_lt y.isLt, Nat.shiftLeft_eq]

theorem append_byte_eq_zero {w : Nat} (x : BitVec w) (y : Byte) : x ++ y = 0 ↔ x = 0 ∧ y = 0 := by
  rw [← BitVec.toNat_inj, ← BitVec.toNat_inj (x := x), ← BitVec.toNat_inj (x := y), toNat_append_byte]
  simp only [BitVec.ofNat_eq_ofNat, BitVec.toNat_ofNat, Nat.zero_mod]
  omega

/-- So many bytes from an offset are zero. -/
def ZeroBytes (p : List Byte) (i n : Nat) : Prop := ∀ k, k < n → byteAt p (i + k) = 0

theorem zeroBytes_succ : ZeroBytes p i (n + 1) ↔ ZeroBytes p i n ∧ byteAt p (i + n) = 0 :=
  Nat.forall_lt_succ_right

theorem zeroBytes_zero : ZeroBytes p i 0 := fun _ h => absurd h (Nat.not_lt_zero _)

theorem field24_eq_zero : field24 p i = 0#24 ↔ ZeroBytes p i 3 := by
  rw [zeroBytes_succ, zeroBytes_succ, zeroBytes_succ]
  simp only [zeroBytes_zero, true_and, Nat.add_zero]
  exact (append_byte_eq_zero (byteAt p i ++ byteAt p (i + 1)) _).trans (and_congr (append_byte_eq_zero _ _) Iff.rfl)

theorem field32_eq_zero : field32 p i = 0#32 ↔ ZeroBytes p i 4 := by
  rw [zeroBytes_succ, ← field24_eq_zero]
  exact append_byte_eq_zero (field24 p i) (byteAt p (i + 3))

theorem field24_zero (first : byteAt p i = 0) (second : byteAt p (i + 1) = 0) (third : byteAt p (i + 2) = 0) : field24 p i = 0 := by
  rw [field24, first, second, third]
  rfl

theorem field16_toNat (p : List Byte) (i : Nat) : (field16 p i).toNat = (byteAt p i).toNat * 256 + (byteAt p (i + 1)).toNat :=
  toNat_append_byte _ _

/-! ### When a payload is well formed (R88, R177) -/

theorem letterOf_isSome {b : Byte} : (letterOf b).isSome = true ↔ b.toNat < 2 := by
  unfold letterOf
  split
  case h_1 h => simp [h]
  case h_2 h => simp [h]
  case h_3 no yes =>
    have : b.toNat ≠ 0 := no
    have : b.toNat ≠ 1 := yes
    simp only [Option.isSome_none, Bool.false_eq_true, false_iff]
    omega

theorem index16Of_isSome {b : Byte} : (index16Of b).isSome = true ↔ b.toNat < 16 := by
  unfold index16Of
  split
  case isTrue h => simpa using h
  case isFalse h => simpa using h

theorem index4Of_isSome {b : Byte} : (index4Of b).isSome = true ↔ b.toNat < 4 := by
  unfold index4Of
  split
  case isTrue h => simpa using h
  case isFalse h => simpa using h

/-- An option that stands under a condition. -/
theorem isSome_ite {α : Type} (P : Prop) [Decidable P] (o : Option α) : (if P then o else none).isSome = true ↔ P ∧ o.isSome = true := by
  by_cases h : P
  · simp only [h, if_true, true_and]
  · simp only [h, if_false, false_and, Option.isSome_none, Bool.false_eq_true]

theorem triggerOf_isSome : (triggerOf p).isSome = true ↔ (byteAt p 2).toNat < 4 ∧ ((byteAt p 2).toNat = 1 → ZeroBytes p 3 4) ∧
    ((byteAt p 2).toNat = 2 → ZeroBytes p 3 3 ∧ (byteAt p 6).toNat < 4) ∧ ((byteAt p 2).toNat = 3 → ZeroBytes p 3 3) := by
  unfold triggerOf
  split
  case h_1 h => simp [h]
  case h_2 h => simp [h, isSome_ite, field32_eq_zero]
  case h_3 h => simp [h, isSome_ite, field24_eq_zero, index4Of_isSome]
  case h_4 h => simp [h, isSome_ite, field24_eq_zero]
  case h_5 n0 n1 n2 n3 =>
    have : (byteAt p 2).toNat ≠ 0 := n0
    have : (byteAt p 2).toNat ≠ 1 := n1
    have : (byteAt p 2).toNat ≠ 2 := n2
    have : (byteAt p 2).toNat ≠ 3 := n3
    simp only [Option.isSome_none, Bool.false_eq_true, false_iff, not_and]
    omega

/-- The edit record at an offset is well formed (R86, R177). -/
def EditBytes (p : List Byte) (i : Nat) : Prop :=
  1 ≤ (byteAt p i).toNat ∧ (byteAt p i).toNat ≤ 5 ∧ (byteAt p (i + 2)).toNat < 16 ∧
  ((byteAt p i).toNat ≤ 4 → (byteAt p (i + 1)).toNat < 16) ∧
  ((byteAt p i).toNat = 2 ∨ (byteAt p i).toNat = 3 ∨ (byteAt p i).toNat = 4 → ZeroBytes p (i + 3) 3) ∧
  ((byteAt p i).toNat = 5 → byteAt p (i + 1) = 0)

theorem editOf_isSome : (editOf p i).isSome = true ↔ EditBytes p i := by
  unfold editOf EditBytes
  have bus := index16Of_isSome (b := byteAt p (i + 2))
  cases read : index16Of (byteAt p (i + 2)) with
  | none =>
    rw [read] at bus
    have high : ¬ (byteAt p (i + 2)).toNat < 16 := by simpa using bus
    simp [high]
  | some b =>
    rw [read] at bus
    have low : (byteAt p (i + 2)).toNat < 16 := bus.mp rfl
    dsimp only
    split
    case h_1 h => simp [h, low, index16Of_isSome]
    case h_2 h => simp [h, low, isSome_ite, field24_eq_zero, index16Of_isSome, and_comm]
    case h_3 h => simp [h, low, isSome_ite, field24_eq_zero, index16Of_isSome, and_comm]
    case h_4 h => simp [h, low, isSome_ite, field24_eq_zero, index16Of_isSome, and_comm]
    case h_5 h => simp [h, low, isSome_ite]
    case h_6 n1 n2 n3 n4 n5 =>
      have : (byteAt p i).toNat ≠ 1 := n1
      have : (byteAt p i).toNat ≠ 2 := n2
      have : (byteAt p i).toNat ≠ 3 := n3
      have : (byteAt p i).toNat ≠ 4 := n4
      have : (byteAt p i).toNat ≠ 5 := n5
      simp only [Option.isSome_none, Bool.false_eq_true, false_iff, not_and]
      omega

theorem editsOf_succ_isSome : (editsOf p i (n + 1)).isSome = true ↔ (editOf p i).isSome = true ∧ (editsOf p (i + 6) n).isSome = true := by
  rw [editsOf]
  cases editOf p i with
  | none => simp
  | some e =>
    cases editsOf p (i + 6) n with
    | none => simp
    | some rest => simp

theorem editsOf_isSome : (editsOf p i n).isSome = true ↔ ∀ k, k < n → EditBytes p (i + 6 * k) := by
  induction n generalizing i with
  | zero => simp [editsOf]
  | succ n ih =>
    rw [editsOf_succ_isSome, editOf_isSome, ih, Nat.forall_lt_succ_left]
    refine and_congr Iff.rfl (forall₂_congr fun k _ => ?_)
    rw [Nat.mul_succ, Nat.add_comm (6 * k), ← Nat.add_assoc]

/-- The four fields of a cue in front of its edits, and its edits (R88). -/
theorem cueOf_isSome : (cueOf p).isSome = true ↔ 1 ≤ (byteAt p 9).toNat ∧ (byteAt p 9).toNat ≤ 8 ∧
    p.length = 10 + 6 * (byteAt p 9).toNat ∧ (byteAt p 1).toNat < 2 ∧ (byteAt p 7).toNat * 256 + (byteAt p 8).toNat ≤ 4095 ∧
    (triggerOf p).isSome = true ∧ (editsOf p 10 (byteAt p 9).toNat).isSome = true := by
  rw [← field16_toNat p 7, ← letterOf_isSome]
  unfold cueOf
  dsimp only
  rw [isSome_ite]
  have fields : (match letterOf (byteAt p 1), triggerOf p, editsOf p 10 (byteAt p 9).toNat with
      | some g, some t, some edits =>
        some ({ tag := byteAt p 0, group := g, trigger := t, armed := false, deferred := false, rampLength := (field16 p 7).toNat,
                edits := edits, state := .waiting, outstanding := 0 } : Cue)
      | _, _, _ => none).isSome = true ↔ (letterOf (byteAt p 1)).isSome = true ∧ (triggerOf p).isSome = true ∧
        (editsOf p 10 (byteAt p 9).toNat).isSome = true := by
    cases letterOf (byteAt p 1) with
    | none => simp
    | some g =>
      cases triggerOf p with
      | none => simp
      | some t =>
        cases editsOf p 10 (byteAt p 9).toNat with
        | none => simp
        | some edits => simp
  constructor
  · rintro ⟨⟨-, least, most, length, ramp⟩, read⟩
    obtain ⟨group, trigger, edits⟩ := fields.mp read
    exact ⟨least, most, length, group, ramp, trigger, edits⟩
  · rintro ⟨least, most, length, group, ramp, trigger, edits⟩
    exact ⟨⟨by omega, least, most, length, ramp⟩, fields.mpr ⟨group, trigger, edits⟩⟩

/-! ### The bytes of a cue (R86, R88, R177) -/

/-- The record of an edit in a CUE POST. -/
def Edit.record : Edit → List Byte
  | .gain c b target => [1, BitVec.ofNat 8 c.val, BitVec.ofNat 8 b.val] ++ bytes24 target
  | .drop c b => [2, BitVec.ofNat 8 c.val, BitVec.ofNat 8 b.val, 0, 0, 0]
  | .route c b => [3, BitVec.ofNat 8 c.val, BitVec.ofNat 8 b.val, 0, 0, 0]
  | .unroute c b => [4, BitVec.ofNat 8 c.val, BitVec.ofNat 8 b.val, 0, 0, 0]
  | .delay b d => [5, 0, BitVec.ofNat 8 b.val] ++ bytes24 (BitVec.ofNat 24 d)

/-- A delay that a record can carry. -/
def Edit.InRecord (e : Edit) : Prop := ∀ b d, e = .delay b d → d < 2 ^ 24

theorem record_length (e : Edit) : e.record.length = 6 := by cases e <;> rfl

theorem records_length (es : List Edit) : (es.flatMap Edit.record).length = 6 * es.length := by
  induction es with
  | nil => rfl
  | cons e rest ih =>
    rw [List.flatMap_cons, List.length_append, record_length, ih, List.length_cons, Nat.mul_succ, Nat.add_comm]

theorem byteAt_append (front back : List Byte) (k : Nat) : byteAt (front ++ back) (front.length + k) = byteAt back k := by
  rw [byteAt, byteAt, List.getD_eq_getElem?_getD, List.getD_eq_getElem?_getD, List.getElem?_append_right (Nat.le_add_right _ _),
    Nat.add_sub_cancel_left]

/-- Reading a record looks at the bytes from its offset on. -/
theorem editOf_append (front back : List Byte) : editOf (front ++ back) front.length = editOf back 0 := by
  have first : byteAt (front ++ back) front.length = byteAt back 0 := byteAt_append front back 0
  have number : field24 (front ++ back) (front.length + 3) = field24 back (0 + 3) := by
    simp only [field24, Nat.add_assoc, byteAt_append]
  simp only [editOf, first, number, byteAt_append, Nat.zero_add]

theorem editOf_record {e : Edit} (fits : e.InRecord) (back : List Byte) : editOf (e.record ++ back) 0 = some e := by
  cases e with
  | gain c b target =>
    have bus : index16Of (byteAt ((Edit.gain c b target).record ++ back) (0 + 2)) = some b := index16Of_ofNat b
    have channel : index16Of (byteAt ((Edit.gain c b target).record ++ back) (0 + 1)) = some c := index16Of_ofNat c
    have number : field24 ((Edit.gain c b target).record ++ back) (0 + 3) = target := bytes24_join target
    rw [editOf, bus, channel, number]
    rfl
  | drop c b =>
    have bus : index16Of (byteAt ((Edit.drop c b).record ++ back) (0 + 2)) = some b := index16Of_ofNat b
    have channel : index16Of (byteAt ((Edit.drop c b).record ++ back) (0 + 1)) = some c := index16Of_ofNat c
    have zero : field24 ((Edit.drop c b).record ++ back) (0 + 3) = 0 := field24_zero rfl rfl rfl
    rw [editOf, bus, channel, zero]
    rfl
  | route c b =>
    have bus : index16Of (byteAt ((Edit.route c b).record ++ back) (0 + 2)) = some b := index16Of_ofNat b
    have channel : index16Of (byteAt ((Edit.route c b).record ++ back) (0 + 1)) = some c := index16Of_ofNat c
    have zero : field24 ((Edit.route c b).record ++ back) (0 + 3) = 0 := field24_zero rfl rfl rfl
    rw [editOf, bus, channel, zero]
    rfl
  | unroute c b =>
    have bus : index16Of (byteAt ((Edit.unroute c b).record ++ back) (0 + 2)) = some b := index16Of_ofNat b
    have channel : index16Of (byteAt ((Edit.unroute c b).record ++ back) (0 + 1)) = some c := index16Of_ofNat c
    have zero : field24 ((Edit.unroute c b).record ++ back) (0 + 3) = 0 := field24_zero rfl rfl rfl
    rw [editOf, bus, channel, zero]
    rfl
  | delay b d =>
    have bus : index16Of (byteAt ((Edit.delay b d).record ++ back) (0 + 2)) = some b := index16Of_ofNat b
    have number : field24 ((Edit.delay b d).record ++ back) (0 + 3) = BitVec.ofNat 24 d := bytes24_join _
    have value : (BitVec.ofNat 24 d).toNat = d := Nat.mod_eq_of_lt (fits b d rfl)
    rw [editOf, bus, number, value]
    rfl

theorem editsOf_records {es : List Edit} (fit : ∀ e ∈ es, e.InRecord) (front : List Byte) :
    editsOf (front ++ es.flatMap Edit.record) front.length es.length = some es := by
  induction es generalizing front with
  | nil => rfl
  | cons e rest ih =>
    have first : editOf (front ++ (e :: rest).flatMap Edit.record) front.length = some e := by
      rw [editOf_append, List.flatMap_cons, editOf_record (fit e List.mem_cons_self)]
    have later := ih (fun d hd => fit d (List.mem_cons_of_mem e hd)) (front ++ e.record)
    rw [List.length_append, record_length, List.append_assoc] at later
    rw [List.length_cons, editsOf, first, List.flatMap_cons, later]

/-- The five trigger bytes of a CUE POST. -/
def Trigger.record : Trigger → List Byte
  | .atFrame n => [0] ++ bytes32 n
  | .next => [1, 0, 0, 0, 0]
  | .pin k => [2, 0, 0, 0, BitVec.ofNat 8 k.val]
  | .after t => [3, 0, 0, 0, t]

/-- The ten bytes in front of the edits of a CUE POST. -/
def Cue.header (c : Cue) : List Byte :=
  [c.tag, byteOfLetter c.group] ++ c.trigger.record ++ bytes16 (BitVec.ofNat 16 c.rampLength) ++ [BitVec.ofNat 8 c.edits.length]

theorem header_length (c : Cue) : c.header.length = 10 := by
  unfold Cue.header
  cases c.trigger <;> rfl

theorem triggerOf_atFrame (kind : byteAt p 2 = 0) : triggerOf p = some (.atFrame (field32 p 3)) := by
  rw [triggerOf, kind]
  rfl

theorem triggerOf_next (kind : byteAt p 2 = 1) (zero : field24 p 3 = 0) (last : byteAt p 6 = 0) : triggerOf p = some .next := by
  have number : field32 p 3 = 0 := (append_byte_eq_zero (field24 p 3) (byteAt p 6)).mpr ⟨zero, last⟩
  rw [triggerOf, kind]
  exact if_pos number

theorem triggerOf_pin {k : PinId} (kind : byteAt p 2 = 2) (zero : field24 p 3 = 0) (pin : index4Of (byteAt p 6) = some k) :
    triggerOf p = some (.pin k) := by
  rw [triggerOf, kind, pin]
  exact if_pos zero

theorem triggerOf_after (kind : byteAt p 2 = 3) (zero : field24 p 3 = 0) : triggerOf p = some (.after (byteAt p 6)) := by
  rw [triggerOf, kind]
  exact if_pos zero

/-- What the reader finds in the ten bytes, whatever follows them. -/
theorem header_fields (c : Cue) (back : List Byte) : byteAt (c.header ++ back) 0 = c.tag ∧
    byteAt (c.header ++ back) 1 = byteOfLetter c.group ∧ triggerOf (c.header ++ back) = some c.trigger ∧
    field16 (c.header ++ back) 7 = BitVec.ofNat 16 c.rampLength ∧ byteAt (c.header ++ back) 9 = BitVec.ofNat 8 c.edits.length := by
  unfold Cue.header
  cases c.trigger with
  | atFrame n => exact ⟨rfl, rfl, (triggerOf_atFrame rfl).trans (congrArg (fun x => some (Trigger.atFrame x)) (bytes32_join n)), bytes16_join _, rfl⟩
  | next => exact ⟨rfl, rfl, triggerOf_next rfl (field24_zero rfl rfl rfl) rfl, bytes16_join _, rfl⟩
  | pin k => exact ⟨rfl, rfl, triggerOf_pin rfl (field24_zero rfl rfl rfl) (index4Of_ofNat k), bytes16_join _, rfl⟩
  | after t => exact ⟨rfl, rfl, triggerOf_after rfl (field24_zero rfl rfl rfl), bytes16_join _, rfl⟩

/-- A cue that can be posted is read back from its bytes (R88). -/
theorem cueOf_bytes {c : Cue} (waits : c.state = .waiting) (unarmed : c.armed = false) (undeferred : c.deferred = false)
    (idle : c.outstanding = 0) (ramp : c.rampLength ≤ 4095) (least : 1 ≤ c.edits.length) (most : c.edits.length ≤ 8)
    (fit : ∀ e ∈ c.edits, e.InRecord) : cueOf (c.header ++ c.edits.flatMap Edit.record) = some c := by
  obtain ⟨tag, group, trigger, length, count⟩ := header_fields c (c.edits.flatMap Edit.record)
  have edits := editsOf_records fit c.header
  have rampNat : (BitVec.ofNat 16 c.rampLength).toNat = c.rampLength := Nat.mod_eq_of_lt (by omega)
  have countNat : (BitVec.ofNat 8 c.edits.length).toNat = c.edits.length := Nat.mod_eq_of_lt (by omega)
  have size : (c.header ++ c.edits.flatMap Edit.record).length = 10 + 6 * c.edits.length := by
    rw [List.length_append, header_length, records_length]
  rw [header_length] at edits
  have enough : 10 ≤ 10 + 6 * c.edits.length := Nat.le_add_right 10 _
  simp only [cueOf, tag, group, trigger, length, count, rampNat, countNat, size, edits, letterOf_byteOfLetter, enough, least, most, ramp,
    and_self, if_true]
  obtain ⟨_, _, _, _, _, _, _, _, _⟩ := c
  cases waits
  cases unarmed
  cases undeferred
  cases idle
  rfl

end Sys2Proof.Machine
end

section
/-! PROOFS. CUE POST: the seven checks in order, and the cue that is admitted (R87 to R92). -/

namespace Sys2Proof.Machine

variable {s : State} {f : ReceivedFrame} {p : List Byte} {c : Cue} {g : GroupId} {e : Edit} {st : Status}

/-! ### The conditions on one edit (R91) -/

theorem checkEdit_noChannel (absent : s.operandExists e = false) : s.checkEdit g e = some .noChannel := by
  unfold State.checkEdit
  exact if_pos (Bool.eq_false_iff.mp absent)

theorem checkEdit_wrongGroup (there : s.operandExists e = true) (other : s.operandInGroup g e = false) :
    s.checkEdit g e = some .wrongGroup := by
  unfold State.checkEdit
  exact (if_neg (not_not_intro there)).trans (if_pos (Bool.eq_false_iff.mp other))

theorem checkEdit_passes (there : s.operandExists e = true) (own : s.operandInGroup g e = true) (still : ∀ b d, e ≠ .delay b d) :
    s.checkEdit g e = none := by
  unfold State.checkEdit
  rw [if_neg (not_not_intro there), if_neg (not_not_intro own)]
  cases e with
  | gain c b target => rfl
  | drop c b => rfl
  | route c b => rfl
  | unroute c b => rfl
  | delay b d => exact absurd rfl (still b d)

theorem checkEdit_delay {b : BusId} {d : Nat} (own : s.operandInGroup g (.delay b d) = true) : s.checkEdit g (.delay b d) =
    (s.line b).elim (some .noLine) fun l => if d < l.length then none else some .badValue := by
  have there : s.operandExists (.delay b d) = true := rfl
  unfold State.checkEdit
  rw [if_neg (not_not_intro there), if_neg (not_not_intro own)]
  dsimp only
  cases s.line b with
  | none => rfl
  | some l => rfl

theorem operandInGroup_iff : s.operandInGroup g e = true ↔ (s.bus e.bus).group = some g ∧ ∀ c ∈ e.channel, s.groupOfChannel c = g := by
  rw [State.operandInGroup, Bool.and_eq_true, decide_eq_true_eq]
  refine and_congr Iff.rfl ?_
  cases e.channel with
  | none => simp
  | some c => simp

/-! ### Check 5 over the edits of a cue (R91) -/

theorem checkEdits_passes {es : List Edit} (pass : ∀ e ∈ es, s.checkEdit g e = none) (n : Nat) : s.checkEdits g es n = none := by
  induction es generalizing n with
  | nil => rfl
  | cons e rest ih =>
    simp only [State.checkEdits, pass e List.mem_cons_self]
    exact ih (fun d hd => pass d (List.mem_cons_of_mem e hd)) (n + 1)

/-- The first edit that fails is the one that is reported. -/
theorem checkEdits_fails {es : List Edit} {i : Nat} (here : es[i]? = some e) (fails : s.checkEdit g e = some st)
    (first : ∀ j, j < i → ∀ d ∈ es[j]?, s.checkEdit g d = none) (n : Nat) : s.checkEdits g es n = some (st, n + i) := by
  induction es generalizing i n with
  | nil => cases here
  | cons d rest ih =>
    cases i with
    | zero =>
      cases here
      simp only [State.checkEdits, fails, Nat.add_zero]
    | succ i =>
      have later := ih (i := i) here (fun j hj => first (j + 1) (Nat.succ_lt_succ hj)) (n + 1)
      simp only [State.checkEdits, first 0 (Nat.succ_pos i) d rfl, later, Nat.add_assoc, Nat.add_comm 1 i]

/-! ### Check 4 (R90) -/

/-- The pin of a PIN trigger has a trigger role, and is not taken. -/
def State.PinReady (s : State) (c : Cue) : Prop :=
  ∀ k, c.trigger = .pin k → (s.pins[k].role = .triggerRise ∨ s.pins[k].role = .triggerFall) ∧ ¬(s.link.twoLine = true ∧ k = 3)

/-- The cue of an AFTER trigger is in the list, of the same group. -/
def State.AfterReady (s : State) (c : Cue) : Prop :=
  ∀ x, c.trigger = .after x → ∃ d ∈ s.cues, d.tag = x ∧ d.group = c.group

theorem checkTrigger_pin {k : PinId} (trigger : c.trigger = .pin k) : s.checkTrigger c =
    if (s.pins[k].role = .triggerRise ∨ s.pins[k].role = .triggerFall) ∧ ¬(s.link.twoLine = true ∧ k = 3) then none else some .pinRole := by
  simp only [State.checkTrigger, trigger, isTrigger_iff, pinTaken_iff]

theorem checkTrigger_after {x : Byte} (trigger : c.trigger = .after x) : s.checkTrigger c =
    if ∃ d ∈ s.cues, d.tag = x ∧ d.group = c.group then none else some .noSuchCue := by
  simp only [State.checkTrigger, trigger, List.any_eq_true, decide_eq_true_eq]

theorem checkTrigger_passes (pin : s.PinReady c) (after : s.AfterReady c) : s.checkTrigger c = none := by
  cases trigger : c.trigger with
  | atFrame n => simp only [State.checkTrigger, trigger]
  | next => simp only [State.checkTrigger, trigger]
  | pin k => rw [checkTrigger_pin trigger, if_pos (pin k trigger)]
  | after x => rw [checkTrigger_after trigger, if_pos (after x trigger)]

theorem checkTrigger_pinRole (pin : ¬ s.PinReady c) : s.checkTrigger c = some .pinRole := by
  unfold State.PinReady at pin
  obtain ⟨k, fails⟩ := Classical.not_forall.mp pin
  obtain ⟨trigger, unready⟩ := Classical.not_imp.mp fails
  rw [checkTrigger_pin trigger, if_neg unready]

theorem checkTrigger_noSuchCue (after : ¬ s.AfterReady c) : s.checkTrigger c = some .noSuchCue := by
  unfold State.AfterReady at after
  obtain ⟨x, fails⟩ := Classical.not_forall.mp after
  obtain ⟨trigger, none_⟩ := Classical.not_imp.mp fails
  rw [checkTrigger_after trigger, if_neg none_]

/-! ### The block, check by check (R88 to R92) -/

theorem exec_cuePost (s : State) : exec .cuePost s = .next (s.takeRequest .cuePost cuePost) := rfl

theorem cuePost_malformed (none_ : cueOf p = none) : cuePost p s = s.refuse .badValue := by
  simp only [cuePost, none_]

section
variable (read : cueOf p = some c)
include read

theorem cuePost_known (known : (s.findCue c.tag).isSome = true) : cuePost p s = s.refuse .dupTag := by
  simp only [cuePost, read, known, if_true]

variable (fresh : (s.findCue c.tag).isSome = false)
include fresh

theorem cuePost_off (off : (s.group c.group).state = .off) : cuePost p s = s.refuse .notReady := by
  simp only [cuePost, read, fresh, off, Bool.false_eq_true, if_false, if_true]

variable (runs : (s.group c.group).state ≠ .off)
include runs

theorem cuePost_trigger (fails : s.checkTrigger c = some st) : cuePost p s = s.refuse st := by
  simp only [cuePost, read, fresh, runs, fails, Bool.false_eq_true, if_false]

variable (trigger : s.checkTrigger c = none)
include trigger

theorem cuePost_edit {i : Nat} (fails : s.checkEdits c.group c.edits 1 = some (st, i)) :
    cuePost p s = { state := s, status := st, payload := [BitVec.ofNat 8 i] } := by
  simp only [cuePost, read, fresh, runs, trigger, fails, Bool.false_eq_true, if_false]
  rfl

variable (edits : s.checkEdits c.group c.edits 1 = none)
include edits

theorem cuePost_listFull (full : 24 ≤ s.cues.length) : cuePost p s = s.refuse .listFull := by
  simp only [cuePost, read, fresh, runs, trigger, edits, Bool.false_eq_true, if_false]
  exact if_pos full

variable (room : s.cues.length < 24)
include room

theorem cuePost_poolFull (full : 128 < s.poolUsed + c.edits.length) : cuePost p s = s.refuse .poolFull := by
  have some_ : c.edits.length ≠ 0 := by
    obtain ⟨-, -, -, -, some_⟩ := cueOf_some read
    exact some_
  have short : s.poolFree < c.edits.length := by
    have free : s.poolFree = 128 - s.poolUsed := rfl
    omega
  have fits : ¬ Config.maxCues ≤ s.cues.length := Nat.not_le.mpr room
  simp only [cuePost, read, fresh, runs, trigger, edits, fits, short, Bool.false_eq_true, if_false, if_true]

theorem cuePost_admits (pool : s.poolUsed + c.edits.length ≤ 128) : cuePost p s = (s.enterCue c).accept
    [BitVec.ofNat 8 (s.cues.length + 1), BitVec.ofNat 8 (128 - (s.poolUsed + c.edits.length))] := by
  have enough : ¬ s.poolFree < c.edits.length := by
    have free : s.poolFree = 128 - s.poolUsed := rfl
    omega
  have fits : ¬ Config.maxCues ≤ s.cues.length := Nat.not_le.mpr room
  have cues : (s.enterCue c).cues = s.cues ++ [c] := rfl
  have count : (s.enterCue c).cues.length = s.cues.length + 1 := by rw [cues, List.length_append, List.length_singleton]
  have left : (s.enterCue c).poolFree = 128 - (s.poolUsed + c.edits.length) := by
    rw [State.poolFree, State.poolUsed, cues, List.map_append, List.sum_append, List.map_singleton, List.sum_singleton]
    rfl
  simp only [cuePost, read, fresh, runs, trigger, edits, fits, enough, Bool.false_eq_true, if_false, count, left]
  rfl

end

/-! ### The cue that is admitted (R87, R92) -/

theorem enterCue_eq (s : State) (c : Cue) : s.enterCue c = { s with
    cues := s.cues ++ [c], mix := { s.mix with buses := (s.enterCue c).mix.buses } } := by
  obtain ⟨pending, resetHeld, straps, lane, word, xp, routes, passes, cues, mem, link, faults, pins, free⟩ := takeHolds_frame (s := s) c.edits
  exact State.eq_of_fields pending resetHeld straps lane word (MixEngine.eq_of_fields rfl xp routes passes) rfl mem link faults pins free

theorem enterCue_bus (s : State) (c : Cue) (b : BusId) : (s.enterCue c).bus b = { s.bus b with
    holdCount := (s.bus b).holdCount + (c.edits.filter fun e => decide (e.bus = b)).length } := takeHolds_bus s c.edits b

theorem known_iff {x : Byte} : (s.findCue x).isSome = true ↔ ∃ d ∈ s.cues, d.tag = x := by
  cases found : s.findCue x with
  | none => exact iff_of_false Bool.false_ne_true fun ⟨d, mem, tag⟩ => findCue_none.mp found d mem tag
  | some d => exact iff_of_true rfl ⟨d, findCue_some found⟩

/-- The checks and the admission of a cue that the payload carries. -/
theorem cuePost_outcome (ha : s.Asks f .cuePost p) (read : cueOf p = some c) (fresh : ¬ ∃ d ∈ s.cues, d.tag = c.tag)
    (runs : (s.group c.group).state ≠ .off) (pin : s.PinReady c) (after : s.AfterReady c) :
    (∀ (i : Nat) (e : Edit) (st : Status), c.edits[i]? = some e → s.checkEdit c.group e = some st →
      (∀ j, j < i → ∀ d ∈ c.edits[j]?, s.checkEdit c.group d = none) →
      exec .cuePost s = .next (s.answered f st [BitVec.ofNat 8 (i + 1)])) ∧
    ((∀ e ∈ c.edits, s.checkEdit c.group e = none) →
      (24 ≤ s.cues.length → exec .cuePost s = .next (s.answered f .listFull [])) ∧
      (s.cues.length < 24 → 128 < s.poolUsed + c.edits.length → exec .cuePost s = .next (s.answered f .poolFull [])) ∧
      (s.cues.length < 24 → s.poolUsed + c.edits.length ≤ 128 → exec .cuePost s = .next { s.taken.enterCue c with
        link := s.link.answered f .ok
          [BitVec.ofNat 8 (s.cues.length + 1), BitVec.ofNat 8 (128 - (s.poolUsed + c.edits.length))] })) := by
  have new : (s.taken.findCue c.tag).isSome = false := Bool.eq_false_iff.mpr (mt known_iff.mp fresh)
  have trigger : s.taken.checkTrigger c = none := checkTrigger_passes (s := s.taken) pin after
  have checks (e : Edit) : s.taken.checkEdit c.group e = s.checkEdit c.group e := rfl
  refine ⟨fun i e st here fails first => ?edit, fun pass => ⟨fun full => ?list, fun room full => ?pool, fun room pool => ?admits⟩⟩
  case edit =>
    have found := checkEdits_fails (s := s.taken) here ((checks e).trans fails) (fun j hj d hd => (checks d).trans (first j hj d hd)) 1
    rw [exec_cuePost, takeRequest_eq ha, cuePost_edit read new runs trigger found, Nat.add_comm 1 i]
    exact congrArg Host.Outcome.next (taken_makeReply s f st _)
  case list =>
    have edits := checkEdits_passes (s := s.taken) (fun e he => (checks e).trans (pass e he)) 1
    rw [exec_cuePost, takeRequest_refused ha (cuePost_listFull (s := s.taken) read new runs trigger edits full)]
  case pool =>
    have edits := checkEdits_passes (s := s.taken) (fun e he => (checks e).trans (pass e he)) 1
    rw [exec_cuePost, takeRequest_refused ha (cuePost_poolFull (s := s.taken) read new runs trigger edits room full)]
  case admits =>
    have edits := checkEdits_passes (s := s.taken) (fun e he => (checks e).trans (pass e he)) 1
    have link : (s.taken.enterCue c).link = s.taken.link := by simp [State.enterCue]
    rw [exec_cuePost, takeRequest_accepted (l := s.link) ha (cuePost_admits (s := s.taken) read new runs trigger edits room pool) link]
    rfl

/-- Settles O35: the checks one after another, the conditions on an edit, and the payload as it is written and read. -/
theorem cuePostChecksAndAdmits : Obligations.CuePostChecksAndAdmits := by
  refine ⟨fun s f p ha => ⟨fun none_ => ?malformed, fun c read => ?checks⟩, fun s g e => ?edit, fun c => ?bytes, fun p => ?formed⟩
  case malformed => rw [exec_cuePost, takeRequest_refused ha (cuePost_malformed none_)]
  case checks =>
    intro known runs pinOk afterOk
    have new (fresh : ¬ known) : (s.taken.findCue c.tag).isSome = false := Bool.eq_false_iff.mpr (mt known_iff.mp fresh)
    refine ⟨fun old => ?_, fun fresh off => ?_, fun fresh on pin => ?_, fun fresh on after => ?_, fun fresh on pin after => ?_⟩
    · rw [exec_cuePost, takeRequest_refused ha (cuePost_known (s := s.taken) read (known_iff.mpr old))]
    · rw [exec_cuePost, takeRequest_refused ha (cuePost_off (s := s.taken) read (new fresh) (Classical.not_not.mp off))]
    · rw [exec_cuePost, takeRequest_refused ha (cuePost_trigger (s := s.taken) read (new fresh) on (checkTrigger_pinRole pin))]
    · rw [exec_cuePost, takeRequest_refused ha (cuePost_trigger (s := s.taken) read (new fresh) on (checkTrigger_noSuchCue after))]
    · obtain ⟨fails, passes⟩ := cuePost_outcome ha read fresh on pin after
      refine ⟨fails, fun pass => ?_⟩
      obtain ⟨listFull, poolFull, admits⟩ := passes pass
      obtain ⟨waits, unarmed, undeferred, idle, -⟩ := cueOf_some read
      refine ⟨listFull, poolFull, fun room pool => ⟨_, admits room pool, ?_, waits, unarmed, undeferred, idle, enterCue_bus s.taken c⟩⟩
      exact congrArg (fun u : State => { u with link := s.link.answered f .ok [BitVec.ofNat 8 (s.cues.length + 1),
        BitVec.ofNat 8 (128 - (s.poolUsed + c.edits.length))] }) (enterCue_eq s.taken c)
  case edit =>
    intro channelOk groupOk
    have there : s.operandExists e = true ↔ channelOk := by
      cases e with
      | gain c b target => exact Iff.rfl
      | drop c b => exact Iff.rfl
      | route c b => exact decide_eq_true_iff
      | unroute c b => exact decide_eq_true_iff
      | delay b d => exact iff_of_true rfl trivial
    have own : s.operandInGroup g e = true ↔ groupOk := operandInGroup_iff
    refine ⟨fun absent => checkEdit_noChannel (Bool.eq_false_iff.mpr (mt there.mp absent)),
      fun present other => checkEdit_wrongGroup (there.mpr present) (Bool.eq_false_iff.mpr (mt own.mp other)),
      fun present same still => checkEdit_passes (there.mpr present) (own.mpr same) still, fun b d delay same => ?_⟩
    have check := checkEdit_delay (delay ▸ own.mpr same : s.operandInGroup g (.delay b d) = true)
    rw [← delay] at check
    refine ⟨fun none_ => ?_, fun l line long => ?_, fun l line short => ?_⟩
    · rw [check, none_, Option.elim_none]
    · rw [check, line, Option.elim_some, if_neg (Nat.not_lt.mpr long)]
    · rw [check, line, Option.elim_some, if_pos short]
  case bytes =>
    intro edit trigger waits unarmed undeferred idle ramp least most fit
    have records : edit = Edit.record := funext fun e => by cases e <;> rfl
    have five : trigger = c.trigger.record := by
      simp only [trigger]
      cases c.trigger <;> rfl
    rw [records, five]
    exact cueOf_bytes waits unarmed undeferred idle ramp least most fun e he b d delay => fit b d (delay ▸ he)
  case formed =>
    intro count kind zero
    rw [cueOf_isSome, triggerOf_isSome, editsOf_isSome]
    exact ⟨fun ⟨least, most, length, group, ramp, ⟨code, next, pin, after⟩, edits⟩ =>
        ⟨least, most, length, group, ramp, code, next, pin, after, edits⟩,
      fun ⟨least, most, length, group, ramp, code, next, pin, after, edits⟩ =>
        ⟨least, most, length, group, ramp, ⟨code, next, pin, after⟩, edits⟩⟩

end Sys2Proof.Machine
end
